-- ==== Sys2Proof/Word.lean ====
section
/-! DEFINITION. The word types of the block: a byte, a 16-bit register, and the short octet strings the spec treats as one value (IPv4 addresses, MAC addresses, the seed record). -/

namespace Sys2Proof

/-- One byte of the window, of a ring, of a frame (00_scope.md R10, `u8`). -/
abbrev Byte := BitVec 8

/-- A 16-bit register, port number or cursor (00_scope.md R10, `u16`). -/
abbrev Half := BitVec 16

/-- A socket index n in 0..3 (00_scope.md R5, `NSOCK` = 4). -/
abbrev SockId := Fin 4

/-- Four octets, the first one at the lowest address (20_memory.md R83): an IPv4 address or a
DHCP transaction id. -/
structure Quad where
  a : Byte
  b : Byte
  c : Byte
  d : Byte
  deriving DecidableEq, Repr

/-- Six octets, the first one at the lowest address (20_memory.md R83): a MAC address. -/
structure Mac where
  a : Byte
  b : Byte
  c : Byte
  d : Byte
  e : Byte
  f : Byte
  deriving DecidableEq, Repr

/-- The host discovery result (00_scope.md R6 `seed`, 44_network_port.md R288). -/
structure Seed where
  mac : Mac
  ip : Quad
  subnet : Quad
  dns : Quad
  gateway : Quad
  deriving DecidableEq, Repr

/-- An opaque token for an open object of the network side (44_network_port.md R281). -/
abbrev Handle := Nat

/-! ## Answers of the network side (44_network_port.md R281)

Each is a `draw` of a rule: an operand of the operation, so that a statement about the operation holds for
every answer. The handle of a positive answer is the next unused token (log 6). -/

/-- Answer to open-UDP/multicast (43_engines.md R243). -/
inductive BindAnswer where
  | ok
  | fail
  | failPermission
  deriving DecidableEq, Repr

/-- Answer to listen-TCP and accept (43_engines.md R244). -/
inductive AcceptAnswer where
  | accepted
  | fail
  | failPermission
  deriving DecidableEq, Repr

/-- What else a listen request draws: whether the listening endpoint is kept for reuse (43_engines.md R244), and the
backlog it is made with, any value (93_implementation_defined.md U22, log 22). -/
structure ListenDraw where
  keeps : Bool
  backlog : Nat
  deriving DecidableEq, Repr

/-- Answer to connect-TCP (43_engines.md R245). -/
inductive ConnectAnswer where
  | connected
  | fail
  deriving DecidableEq, Repr

/-- The fields of a valid DHCP frame that the block reads (45_dhcp_responder.md R302). -/
structure DhcpFrame where
  htype : Byte
  hlen : Byte
  xid : Quad
  flags : Half
  ciaddr : Quad
  /-- 16 bytes (`Instr.wf` says so). -/
  chaddr : List Byte
  msgtype : Byte
  /-- The 4-byte value of option 0x36, if the frame has one of that length. -/
  serverId : Option Quad
  deriving DecidableEq, Repr

end Sys2Proof
end

