-- ==== Sys2Proof/Config.lean ====
section
/-! DEFINITION. What an implementation fixes: the constants of 00_scope.md R5, the configuration record of 00_scope.md R6 that a claim may quantify over, its defaults, and the one free value of the model. -/

namespace Sys2Proof.Config

/-! ## Constants of 00_scope.md R5 -/

/-- `WIN_SIZE`: bytes of the register memory window (10_state.md R20). -/
def winSize : Nat := 0x8000

/-- `UDP_HDR`: bytes written ahead of a UDP payload (30_encoding.md R120). -/
def udpHdr : Nat := 8

/-- `ICMP_ECHO_REQ`: first payload byte of an ICMP echo request. -/
def icmpEchoReq : Byte := 0x08

/-- `DHCP_COOKIE`: the options magic cookie 63 82 53 63. -/
def dhcpCookie : List Byte := [0x63, 0x82, 0x53, 0x63]

/-- `DHCP_DEADLINE_MS`: life of an exchange that awaits its REQUEST. -/
def dhcpDeadlineMs : Nat := 1000

/-- `DHCP_ACK`: the message type of an ACK. -/
def dhcpAck : Byte := 0x05

/-- The message type of an OFFER (30_encoding.md R124). -/
def dhcpOffer : Byte := 0x02

/-- `DHCP_DISCOVER` (30_encoding.md R124). -/
def dhcpDiscover : Byte := 0x01

/-- The message type of a REQUEST (30_encoding.md R124). -/
def dhcpRequest : Byte := 0x03

/-- `PROBE_HTTP_PORT`: the port of the HTTP attempt inside a reachability probe, which is the
network side's business (46_icmp_echo.md R340). -/
def probeHttpPort : Nat := 80

/-- The shortest valid DHCP frame (30_encoding.md R123). -/
def dhcpMinLen : Nat := 240

/-- The protocol number of ICMP in `S[n].PROTO` (46_icmp_echo.md R341). -/
def protoIcmp : Byte := 0x01

/-- Bytes of the IPRAW receive header that 30_encoding.md R121 lays out. -/
def iprawHdr : Nat := 6

/-- The code of NONE. It is no parameter: 10_state.md R42 and 42_socket_commands.md R200 speak of "a non-zero
value". -/
def codeNone : Byte := 0x00

/-! ## The address map: 00_scope.md R6, decisions D1, D2, D44 -/

/-- The addresses R6 leaves open. An offset of the common block counts from `commonBase`, an offset of a socket
block from the block's base. -/
structure AddressMap where
  /-- `ADDR_W`: width of the bus address input (20_memory.md R81). -/
  addrW : Nat
  /-- `COMMON_BASE`. -/
  commonBase : Nat
  /-- `SOCK_BASE`. -/
  sockBase : Nat
  /-- `SOCK_STRIDE`. -/
  sockStride : Nat
  /-- `TX_BANK_BASE`. -/
  txBankBase : Nat
  /-- `RX_BANK_BASE`. -/
  rxBankBase : Nat
  /-- `BANK_SIZE`: bytes of each of the two banks (90_conflicts.md C1). -/
  bankSize : Nat
  /-- Offset of `C.MR`, mode. -/
  offCMr : Nat
  /-- Offset of `C.GAR`, gateway IPv4 address, 4 bytes. -/
  offCGar : Nat
  /-- Offset of `C.SUBR`, subnet mask, 4 bytes. -/
  offCSubr : Nat
  /-- Offset of `C.SHAR`, source MAC address, 6 bytes. -/
  offCShar : Nat
  /-- Offset of `C.SIPR`, source IPv4 address, 4 bytes. -/
  offCSipr : Nat
  /-- Offset of `C.IR`, interrupt flags. -/
  offCIr : Nat
  /-- Offset of `C.RTR`, retry time, 2 bytes. -/
  offCRtr : Nat
  /-- Offset of `C.RCR`, retry count. -/
  offCRcr : Nat
  /-- Offset of `C.RMSR`, RX size selectors. -/
  offCRmsr : Nat
  /-- Offset of `C.TMSR`, TX size selectors. -/
  offCTmsr : Nat
  /-- Offset of `C.PTIMER`, PPP timer, storage only. -/
  offCPtimer : Nat
  /-- Offset of `S[n].MR`, socket mode. -/
  oMr : Nat
  /-- Offset of `S[n].CR`, command byte. -/
  oCr : Nat
  /-- Offset of `S[n].IR`, socket interrupt bits. -/
  oIr : Nat
  /-- Offset of `S[n].SR`, status code. -/
  oSr : Nat
  /-- Offset of `S[n].PORT`, source port, 2 bytes. -/
  oPort : Nat
  /-- Offset of `S[n].DHAR`, destination MAC, 6 bytes, storage only. -/
  oDhar : Nat
  /-- Offset of `S[n].DIPR`, destination IPv4 address, 4 bytes. -/
  oDipr : Nat
  /-- Offset of `S[n].DPORT`, destination port, 2 bytes. -/
  oDport : Nat
  /-- Offset of `S[n].PROTO`, raw protocol id. -/
  oProto : Nat
  /-- Offset of `S[n].TTL`, time to live. -/
  oTtl : Nat
  /-- Offset of `S[n].TX_FSR`, TX free size, 2 bytes. -/
  oTxFsr : Nat
  /-- Offset of `S[n].TX_RD`, TX read pointer, 2 bytes. -/
  oTxRd : Nat
  /-- Offset of `S[n].TX_WR`, TX write pointer, 2 bytes. -/
  oTxWr : Nat
  /-- Offset of `S[n].RX_RSR`, RX received size, 2 bytes. -/
  oRxRsr : Nat
  /-- Offset of `S[n].RX_RD`, RX read pointer, 2 bytes. -/
  oRxRd : Nat
  /-- Offset of `S[n].RX_WR`, RX write pointer, 2 bytes. -/
  oRxWr : Nat
  deriving DecidableEq, Repr

/-- The map of the tables of 10_state.md R21, R22, R40. -/
def AddressMap.tabled : AddressMap where
  addrW := 16
  commonBase := 0x0000
  sockBase := 0x0400
  sockStride := 0x0100
  txBankBase := 0x4000
  rxBankBase := 0x6000
  bankSize := 8192
  offCMr := 0x00
  offCGar := 0x01
  offCSubr := 0x05
  offCShar := 0x09
  offCSipr := 0x0F
  offCIr := 0x15
  offCRtr := 0x17
  offCRcr := 0x19
  offCRmsr := 0x1A
  offCTmsr := 0x1B
  offCPtimer := 0x28
  oMr := 0x00
  oCr := 0x01
  oIr := 0x02
  oSr := 0x03
  oPort := 0x04
  oDhar := 0x06
  oDipr := 0x0C
  oDport := 0x10
  oProto := 0x14
  oTtl := 0x16
  oTxFsr := 0x20
  oTxRd := 0x22
  oTxWr := 0x24
  oRxRsr := 0x26
  oRxRd := 0x28
  oRxWr := 0x2A

/-- The address of `C.MR`. -/
def AddressMap.cMr (m : AddressMap) : Nat := m.commonBase + m.offCMr
/-- The address of `C.GAR`. -/
def AddressMap.cGar (m : AddressMap) : Nat := m.commonBase + m.offCGar
/-- The address of `C.SUBR`. -/
def AddressMap.cSubr (m : AddressMap) : Nat := m.commonBase + m.offCSubr
/-- The address of `C.SHAR`. -/
def AddressMap.cShar (m : AddressMap) : Nat := m.commonBase + m.offCShar
/-- The address of `C.SIPR`. -/
def AddressMap.cSipr (m : AddressMap) : Nat := m.commonBase + m.offCSipr
/-- The address of `C.IR`. -/
def AddressMap.cIr (m : AddressMap) : Nat := m.commonBase + m.offCIr
/-- The address of `C.RTR`. -/
def AddressMap.cRtr (m : AddressMap) : Nat := m.commonBase + m.offCRtr
/-- The address of `C.RCR`. -/
def AddressMap.cRcr (m : AddressMap) : Nat := m.commonBase + m.offCRcr
/-- The address of `C.RMSR`. -/
def AddressMap.cRmsr (m : AddressMap) : Nat := m.commonBase + m.offCRmsr
/-- The address of `C.TMSR`. -/
def AddressMap.cTmsr (m : AddressMap) : Nat := m.commonBase + m.offCTmsr
/-- The address of `C.PTIMER`. -/
def AddressMap.cPtimer (m : AddressMap) : Nat := m.commonBase + m.offCPtimer

/-! ## The codes: 00_scope.md R6, decisions D4 to D7 -/

/-- The command, status, interrupt and mode codes R6 leaves open. -/
structure Codes where
  /-- Command `OPEN` (30_encoding.md R112). -/
  cmdOpen : Byte
  /-- Command `LISTEN`. -/
  cmdListen : Byte
  /-- Command `CONNECT`. -/
  cmdConnect : Byte
  /-- Command `DISCON`. -/
  cmdDiscon : Byte
  /-- Command `CLOSE`. -/
  cmdClose : Byte
  /-- Command `SEND`. -/
  cmdSend : Byte
  /-- Command `SEND_MAC`. -/
  cmdSendMac : Byte
  /-- Command `SEND_KEEP`. -/
  cmdSendKeep : Byte
  /-- Command `RECV`. -/
  cmdRecv : Byte
  /-- Status `CLOSED` (30_encoding.md R114). -/
  srClosed : Byte
  /-- Status `INIT`. -/
  srInit : Byte
  /-- Status `LISTEN`. -/
  srListen : Byte
  /-- Status `ESTABLISHED`. -/
  srEstablished : Byte
  /-- Status `CLOSING`. -/
  srClosing : Byte
  /-- Status `CLOSE_WAIT`. -/
  srCloseWait : Byte
  /-- Status `UDP`. -/
  srUdp : Byte
  /-- Status `IPRAW`. -/
  srIpraw : Byte
  /-- Status `MACRAW`, never produced by the block. -/
  srMacraw : Byte
  /-- Status `PPPOE`, never produced by the block. -/
  srPppoe : Byte
  /-- Mask of interrupt `CON` (30_encoding.md R115). -/
  intCon : Byte
  /-- Mask of interrupt `DISCON`. -/
  intDiscon : Byte
  /-- Mask of interrupt `RECV`. -/
  intRecv : Byte
  /-- Mask of interrupt `TIMEOUT`. -/
  intTimeout : Byte
  /-- Mask of interrupt `SEND_OK`. -/
  intSendOk : Byte
  /-- Protocol nibble `TCP` (30_encoding.md R116). -/
  protoTcp : BitVec 4
  /-- Protocol nibble `UDP`. -/
  protoUdp : BitVec 4
  /-- Protocol nibble `IPRAW`. -/
  protoIpraw : BitVec 4
  /-- Protocol nibble `MACRAW`. -/
  protoMacraw : BitVec 4
  /-- Protocol nibble `PPPOE`. -/
  protoPppoe : BitVec 4
  deriving DecidableEq, Repr

/-- The codes of the tables of 30_encoding.md R112, R114, R115, R116. -/
def Codes.tabled : Codes where
  cmdOpen := 0x01
  cmdListen := 0x02
  cmdConnect := 0x04
  cmdDiscon := 0x08
  cmdClose := 0x10
  cmdSend := 0x20
  cmdSendMac := 0x21
  cmdSendKeep := 0x22
  cmdRecv := 0x40
  srClosed := 0x00
  srInit := 0x13
  srListen := 0x14
  srEstablished := 0x17
  srClosing := 0x1A
  srCloseWait := 0x1C
  srUdp := 0x22
  srIpraw := 0x32
  srMacraw := 0x42
  srPppoe := 0x5F
  intCon := 0x01
  intDiscon := 0x02
  intRecv := 0x04
  intTimeout := 0x08
  intSendOk := 0x10
  protoTcp := 0x1
  protoUdp := 0x2
  protoIpraw := 0x3
  protoMacraw := 0x4
  protoPppoe := 0x5

/-- The ten command codes of R112. -/
def Codes.commands (k : Codes) : List Byte :=
  [codeNone, k.cmdOpen, k.cmdListen, k.cmdConnect, k.cmdDiscon, k.cmdClose, k.cmdSend, k.cmdSendMac, k.cmdSendKeep,
    k.cmdRecv]

/-- The five named protocol nibbles of R116. -/
def Codes.protocols (k : Codes) : List (BitVec 4) :=
  [k.protoTcp, k.protoUdp, k.protoIpraw, k.protoMacraw, k.protoPppoe]

/-- The defined bits of `S[n].IR` (R115). -/
def Codes.intMask (k : Codes) : Byte :=
  k.intCon ||| k.intDiscon ||| k.intRecv ||| k.intTimeout ||| k.intSendOk

/-! ## Facade opcodes: 00_scope.md R6, decision D42 -/

/-- The facade's opcodes (47_firmware_facade.md R362). -/
structure Opcodes where
  wrbytes : Byte
  rdbytes : Byte
  setaddr : Byte
  getaddr : Byte
  rdtimer : Byte
  wrip : Byte
  rdip : Byte
  portno : Byte
  swver : Byte
  hwver : Byte
  link : Byte
  id : Byte
  errcnt : Byte
  deriving DecidableEq, Repr

/-- The opcodes of the table of R362. -/
def Opcodes.tabled : Opcodes where
  wrbytes := 0x00
  rdbytes := 0x01
  setaddr := 0x02
  getaddr := 0x03
  rdtimer := 0x04
  wrip := 0x05
  rdip := 0x06
  portno := 0x07
  swver := 0x08
  hwver := 0x09
  link := 0x0A
  id := 0x0B
  errcnt := 0x0C

/-- The thirteen opcodes. -/
def Opcodes.all (o : Opcodes) : List Byte :=
  [o.wrbytes, o.rdbytes, o.setaddr, o.getaddr, o.rdtimer, o.wrip, o.rdip, o.portno, o.swver, o.hwver, o.link, o.id,
    o.errcnt]

/-! ## The configuration record -/

/-- The configuration record of 00_scope.md R6, a field for every row of its table but `seed`, which is an input
line, and `FACADE_LINK`, which 47_firmware_facade.md R373 makes a draw. No step changes it (logs 3 and 17). -/
structure Params where
  /-- Addresses and offsets. -/
  map : AddressMap
  /-- Command, status, interrupt and mode codes. -/
  codes : Codes
  /-- Facade opcodes. -/
  ops : Opcodes
  /-- `RESET_RTR`, default 0x07D0 (D25). -/
  resetRtr : Half
  /-- `RESET_RCR`, default 0x08 (D25). -/
  resetRcr : Byte
  /-- `RESET_RMSR`, default 0x55 (D25). -/
  resetRmsr : Byte
  /-- `RESET_TMSR`, default 0x55 (D25). -/
  resetTmsr : Byte
  /-- `RESET_PTIMER`, default 0x28 (D25). -/
  resetPtimer : Byte
  /-- `RTR_UNIT_US`: microseconds per unit of `C.RTR`, default 100 (D24). -/
  rtrUnitUs : Nat
  /-- `DHCP_SERVER_PORT`, default 67 (D30). -/
  dhcpServerPort : Half
  /-- `DHCP_CLIENT_PORT`, default 68 (D30): no rule of the block reads it. -/
  dhcpClientPort : Half
  /-- `DHCP_SERVER_IP`, OPEN (D35). -/
  dhcpServerIp : Quad
  /-- `DHCP_LEASE_S`, default 86400 seconds (D32). -/
  dhcpLeaseS : BitVec 32
  /-- `DHCP_FRAME_LEN`: bytes of a fabricated OFFER or ACK, default 300 (D32). -/
  dhcpFrameLen : Nat
  /-- `IPRAW_INFO_HDR`: bytes of the header ahead of an IPRAW payload, default 6; 0 is no header (D36). -/
  iprawInfoHdr : Nat
  /-- `FACADE_SWVER`, OPEN (D42). -/
  facadeSwver : Half
  /-- `FACADE_HWVER`, OPEN (D42). -/
  facadeHwver : Half
  /-- `FACADE_ID`, OPEN (D42). -/
  facadeId : List Byte
  deriving DecidableEq, Repr

/-- The defaults of R6. DESIGN CHOICE (log 3) for the OPEN parameters: the illustrative server address
of 95_test_vectors.md, version 0, an empty identification string. -/
def defaults : Params where
  map := .tabled
  codes := .tabled
  ops := .tabled
  resetRtr := 0x07D0
  resetRcr := 0x08
  resetRmsr := 0x55
  resetTmsr := 0x55
  resetPtimer := 0x28
  rtrUnitUs := 100
  dhcpServerPort := 67
  dhcpClientPort := 68
  dhcpServerIp := ⟨0xC0, 0xA8, 0x01, 0x01⟩
  dhcpLeaseS := 86400
  dhcpFrameLen := 300
  iprawInfoHdr := 6
  facadeSwver := 0
  facadeHwver := 0
  facadeId := []

/-- Addresses, codes and opcodes are those the tables of the spec list, the defaults of R6. -/
structure Params.Tabled (c : Params) : Prop where
  map : c.map = .tabled
  codes : c.codes = .tabled
  ops : c.ops = .tabled

/-- The illustrative seed of 70_reset_and_hazards.md R448. DESIGN CHOICE (log 4): what the seed input
line carries in `State.reset`. -/
def illustrativeSeed : Seed where
  mac := ⟨0x02, 0x00, 0x00, 0x12, 0x34, 0x56⟩
  ip := ⟨0xC0, 0xA8, 0x01, 0x32⟩
  subnet := ⟨0xFF, 0xFF, 0xFF, 0x00⟩
  dns := ⟨0xC0, 0xA8, 0x01, 0x01⟩
  gateway := ⟨0xC0, 0xA8, 0x01, 0x01⟩

/-- FREE VALUE (log 8): the bytes a SEND hands on when more bytes lie between the TX cursors at its
completion than the ring holds, where 41_ring_buffers.md R187 defines no `RingRead`; and the bytes of an IPRAW
receive header of a length other than 0 and 6, which 30_encoding.md R121 does not lay out. No body: nothing can
be proved of its values. -/
opaque freeByte : Nat → Byte

end Sys2Proof.Config
end

