-- ==== Sys2Proof/Syntax.lean ====
section
/-! DEFINITION. The operations of the block (00_scope.md R9): one constructor for each row of spec/opcode_table.json, in the table's order. Register numbers and codes are already decoded; what the environment draws in a rule is an operand. -/

namespace Sys2Proof

/-- The "instructions" of the block: bus transactions (BUS), command bytes (SCMD), mode bytes read by OPEN
(SMODE), engine and environment steps (EVENT), DHCP and ICMP payloads (DHCPIN, ICMPIN), facade commands
(FCMD) and lifecycle requests (LIFE). -/
inductive Instr where
  /-- `RD` (40_register_access.md R151). -/
  | rd (addr : Half)
  /-- `WR` (R152): a write to an address none of the six rows below selects. -/
  | wr (addr : Half) (data : Byte)
  /-- `WR.C_MR` (R153). -/
  | wrCMr (data : Byte)
  /-- `WR.C_IR` (R156). -/
  | wrCIr (data : Byte)
  /-- `WR.Sn_CR` (42_socket_commands.md R200). -/
  | wrSnCr (n : SockId) (code : Byte)
  /-- `WR.Sn_IR` (R155). -/
  | wrSnIr (n : SockId) (mask : Byte)
  /-- `WR.Sn_SR` (R156). -/
  | wrSnSr (n : SockId) (data : Byte)
  /-- `WR.Sn_TX_WR_LO` (R154). -/
  | wrSnTxWrLo (n : SockId) (data : Byte)
  /-- `WR.Sn_RX_RD_LO` (R154). -/
  | wrSnRxRdLo (n : SockId) (data : Byte)
  /-- `NONE` (R200). -/
  | scmdNone (n : SockId)
  /-- `OPEN` (R202). -/
  | scmdOpen (n : SockId)
  /-- `LISTEN` (R203). -/
  | scmdListen (n : SockId)
  /-- `CONNECT` (R204). -/
  | scmdConnect (n : SockId)
  /-- `DISCON` (R205). -/
  | scmdDiscon (n : SockId)
  /-- `CLOSE` (R206). -/
  | scmdClose (n : SockId)
  /-- `SEND` (R207). -/
  | scmdSend (n : SockId)
  /-- `SEND_MAC` (R208). -/
  | scmdSendMac (n : SockId)
  /-- `SEND_KEEP` (R209). -/
  | scmdSendKeep (n : SockId)
  /-- `RECV` (R210). -/
  | scmdRecv (n : SockId)
  /-- `SCMD_UNRECOGNISED` (R211). -/
  | scmdUnrecognised (n : SockId) (code : Byte)
  /-- `SMODE.TCP` (R202); `hi` is bits 7:4 of the mode byte. -/
  | smodeTcp (n : SockId) (hi : BitVec 4)
  /-- `SMODE.UDP` (R202); MULTI is bit 7 of the mode byte, the top bit of `hi`. -/
  | smodeUdp (n : SockId) (hi : BitVec 4)
  /-- `SMODE.IPRAW` (R202). -/
  | smodeIpraw (n : SockId) (hi : BitVec 4)
  /-- `SMODE.MACRAW` (R202). -/
  | smodeMacraw (n : SockId) (hi : BitVec 4)
  /-- `SMODE.PPPOE` (R202). -/
  | smodePppoe (n : SockId) (hi : BitVec 4)
  /-- `SMODE.OTHER` (R202). -/
  | smodeOther (n : SockId) (hi : BitVec 4) (p : BitVec 4)
  /-- `CTL.UDPBIND_DONE` (43_engines.md R243). -/
  | ctlUdpbindDone (n : SockId) (answer : BindAnswer)
  /-- `CTL.LISTEN_DONE` (R244); `draw` says whether the network side keeps a listening endpoint (log 16) and which
  backlog the request carries (log 22). -/
  | ctlListenDone (n : SockId) (answer : AcceptAnswer) (draw : ListenDraw)
  /-- `CTL.CONNECT_DONE` (R245). -/
  | ctlConnectDone (n : SockId) (answer : ConnectAnswer)
  /-- `CTL.SEND_DONE` (R246); `ok` and `keep` are the two draws of the rule. -/
  | ctlSendDone (n : SockId) (ok : Bool) (keep : Bool)
  /-- `CTL.CLOSE_DONE` (R247). -/
  | ctlCloseDone (n : SockId)
  /-- `RX.TCP` (R249): `avail` are the unread stream bytes, `k` how many of them are taken. -/
  | rxTcp (n : SockId) (avail : List Byte) (k : Nat)
  /-- `RX.UDP` (R251): one datagram. -/
  | rxUdp (n : SockId) (ip : Quad) (port : Half) (payload : List Byte)
  /-- `RX.EOF` (R252). -/
  | rxEof (n : SockId)
  /-- `RX.ERROR` (R253); `keep` draws whether the handle survives. -/
  | rxError (n : SockId) (keep : Bool)
  /-- `RX.DHCP_DELIVER` (45_dhcp_responder.md R310). -/
  | rxDhcpDeliver (n : SockId)
  /-- `RX.IPRAW` (46_icmp_echo.md R345). -/
  | rxIpraw (n : SockId)
  /-- `PROBE.DONE` (R344): the probe of the ping at position `p` of `pings` answers. -/
  | probeDone (p : Nat) (reachable : Bool)
  /-- `PING.EXPIRE` (R347): the ping at position `p` is removed. -/
  | pingExpire (p : Nat)
  /-- `DHCP.EXPIRE` (45_dhcp_responder.md R309). -/
  | dhcpExpire
  /-- `DHCP.DISCOVER` (R304): a DISCOVER sent by socket `n`. -/
  | dhcpDiscover (n : SockId) (f : DhcpFrame)
  /-- `DHCP.REQUEST` (R306). -/
  | dhcpRequest (n : SockId) (f : DhcpFrame)
  /-- `DHCP.OTHER` (R308). -/
  | dhcpOther (n : SockId) (f : DhcpFrame)
  /-- `DHCP.INVALID` (R303). -/
  | dhcpInvalid (n : SockId) (data : List Byte)
  /-- `ICMP.ECHO_REQUEST` (46_icmp_echo.md R342). -/
  | icmpEchoRequest (n : SockId) (payload : List Byte)
  /-- `ICMP.OTHER` (R343); `proto` is the raw protocol id it is sent under. -/
  | icmpOther (n : SockId) (proto : Byte) (payload : List Byte)
  /-- `F_WRBYTES` (47_firmware_facade.md R364): the count is the length of `data`. -/
  | fWrbytes (data : List Byte)
  /-- `F_RDBYTES` (R365). -/
  | fRdbytes (count : Half)
  /-- `F_SETADDR` (R366). -/
  | fSetaddr (addr : Half)
  /-- `F_GETADDR` (R367). -/
  | fGetaddr
  /-- `F_RDTIMER` (R368). -/
  | fRdtimer
  /-- `F_WRIP` (R369). -/
  | fWrip (slot : Byte) (ip : Quad)
  /-- `F_RDIP` (R370). -/
  | fRdip (slot : Byte)
  /-- `F_PORTNO` (R371). -/
  | fPortno
  /-- `F_SWVER` (R372). -/
  | fSwver
  /-- `F_HWVER` (R372). -/
  | fHwver
  /-- `F_LINK` (R373). -/
  | fLink
  /-- `F_ID` (R374). -/
  | fId
  /-- `F_ERRCNT` (R376). -/
  | fErrcnt
  /-- `F_UNKNOWN` (R375). -/
  | fUnknown (opcode : Byte)
  /-- `LIFE.SOFT` (70_reset_and_hazards.md R440, R441, R444). -/
  | lifeSoft
  /-- `LIFE.COLD_ON` (R442). -/
  | lifeColdOn
  /-- `LIFE.POWER_OFF` (R443). -/
  | lifePowerOff
  /-- `LIFE.DESTROY` (R445). -/
  | lifeDestroy
  deriving DecidableEq, Repr

end Sys2Proof
end

