-- ==== Sys2Proof/Decode.lean ====
section
/-! DEFINITION. What the block decodes (30_encoding.md R110): the six input formats, the agent steps and the lifecycle requests as raw units, the total decoder, and the encoder after it. Also the byte-order helpers and the address decoder of the window, which the bus decoder and the machine share. -/

namespace Sys2Proof

open Config

/-! ## Byte order (20_memory.md R82, R83) -/

/-- Bits 15:8. -/
def hiByte (w : Half) : Byte := w.extractLsb' 8 8

/-- Bits 7:0. -/
def loByte (w : Half) : Byte := w.extractLsb' 0 8

/-- The 16-bit value of a high and a low byte. -/
def half (hi lo : Byte) : Half := hi ++ lo

/-- A 16-bit field as the block lays it out: high byte first (R82). -/
def halfBytes (w : Half) : List Byte := [hiByte w, loByte w]

/-- Four octets in address order (R83). -/
def quadBytes (q : Quad) : List Byte := [q.a, q.b, q.c, q.d]

/-- Six octets in address order (R83). -/
def macBytes (m : Mac) : List Byte := [m.a, m.b, m.c, m.d, m.e, m.f]

/-- Four bytes of a 32-bit value, most significant first (30_encoding.md R124, the lease time). -/
def wordBytes (w : BitVec 32) : List Byte :=
  [w.extractLsb' 24 8, w.extractLsb' 16 8, w.extractLsb' 8 8, w.extractLsb' 0 8]

/-- The four octets at offset `i` of a byte string. -/
def quadAt (data : List Byte) (i : Nat) : Quad :=
  ⟨data.getD i 0, data.getD (i + 1) 0, data.getD (i + 2) 0, data.getD (i + 3) 0⟩

/-! ## The address decoder of the window (10_state.md R21, R22, R40; 40_register_access.md R152) -/

/-- The bytes of the device-owned registers of one socket block (10_state.md R40, access `DEV`). -/
inductive DevByte where
  | sr
  | txFsrHi
  | txFsrLo
  | txRdHi
  | txRdLo
  | rxRsrHi
  | rxRsrLo
  | rxWrHi
  | rxWrLo
  deriving DecidableEq, Repr

/-- What an address selects, as far as an access has to know (R152, R156). -/
inductive Loc where
  /-- `C.MR`. -/
  | cMr
  /-- `C.IR`, device-owned. -/
  | cIr
  /-- `S[n].CR`. -/
  | sCr (n : SockId)
  /-- `S[n].IR`, write-1-to-clear. -/
  | sIr (n : SockId)
  /-- A byte of a device-owned register of socket n. -/
  | sDev (n : SockId) (r : DevByte)
  /-- Low byte of `S[n].TX_WR`, a commit point. -/
  | txWrLo (n : SockId)
  /-- Low byte of `S[n].RX_RD`, a commit point. -/
  | rxRdLo (n : SockId)
  /-- Any other byte of the window: plain storage. -/
  | plain
  /-- 0x8000 and above (20_memory.md R81). -/
  | outside
  deriving DecidableEq, Repr

/-- The address the bus carries: the `ADDR_W` bits of the address input (R70, R81). DESIGN CHOICE (log 17): the
address of a transaction is the 16 bits of the BUS record (30_encoding.md R111) for every `ADDR_W`; a narrower bus
carries its low bits, and of a wider one the addresses from 0x10000 on, all out of range, cannot be presented. -/
def busAddr (m : AddressMap) (addr : Half) : Nat := addr.toNat % 2 ^ m.addrW

/-- The address of offset `off` of socket block n: `S_BASE(n) + off` (10_state.md R21). -/
def sockAddr (m : AddressMap) (n : SockId) (off : Nat) : Nat := m.sockBase + n.val * m.sockStride + off

/-- Look further where no register was found. -/
def Loc.orElse (x y : Loc) : Loc :=
  match x with
  | .plain => y
  | _ => x

/-- The arm of R152 for `S[n].CR`. -/
def commandLoc (m : AddressMap) (a : Nat) (n : SockId) : Loc := if a = sockAddr m n m.oCr then .sCr n else .plain

/-- The arm of R152 for `S[n].IR`. -/
def interruptLoc (m : AddressMap) (a : Nat) (n : SockId) : Loc := if a = sockAddr m n m.oIr then .sIr n else .plain

/-- The arm of R152 for the bytes of the device-owned registers of socket n. -/
def deviceLoc (m : AddressMap) (a : Nat) (n : SockId) : Loc :=
  if a = sockAddr m n m.oSr then .sDev n .sr
  else if a = sockAddr m n m.oTxFsr then .sDev n .txFsrHi
  else if a = sockAddr m n (m.oTxFsr + 1) then .sDev n .txFsrLo
  else if a = sockAddr m n m.oTxRd then .sDev n .txRdHi
  else if a = sockAddr m n (m.oTxRd + 1) then .sDev n .txRdLo
  else if a = sockAddr m n m.oRxRsr then .sDev n .rxRsrHi
  else if a = sockAddr m n (m.oRxRsr + 1) then .sDev n .rxRsrLo
  else if a = sockAddr m n m.oRxWr then .sDev n .rxWrHi
  else if a = sockAddr m n (m.oRxWr + 1) then .sDev n .rxWrLo
  else .plain

/-- The arm of R152 for the two commit points of socket n. -/
def commitLoc (m : AddressMap) (a : Nat) (n : SockId) : Loc :=
  if a = sockAddr m n (m.oTxWr + 1) then .txWrLo n
  else if a = sockAddr m n (m.oRxRd + 1) then .rxRdLo n
  else .plain

/-- One arm for every socket: `n` ranges over 0..3 (R152). Where it fits for two sockets, the lower n (DESIGN CHOICE,
log 17). -/
def anySocket (arm : SockId → Loc) : Loc := (((arm 0).orElse (arm 1)).orElse (arm 2)).orElse (arm 3)

/-- What an address selects: the arms of R152 in their order, each for every socket before the next. Where two registers
of one arm share a byte, the first line of that arm wins, and a read shows the register a write meets (DESIGN CHOICE,
log 17). -/
def locate (m : AddressMap) (a : Nat) : Loc :=
  if winSize ≤ a then .outside
  else if a = m.cMr then .cMr
  else if a = m.cIr then .cIr
  else ((anySocket (commandLoc m a)).orElse (anySocket (interruptLoc m a))).orElse
    ((anySocket (deviceLoc m a)).orElse (anySocket (commitLoc m a)))

/-! ## Raw units -/

/-- One step of an agent or of the environment, with the answers it draws: "none (agent step, no bit
pattern)" in the table. -/
inductive Event where
  | udpbindDone (n : SockId) (answer : BindAnswer)
  | listenDone (n : SockId) (answer : AcceptAnswer) (draw : ListenDraw)
  | connectDone (n : SockId) (answer : ConnectAnswer)
  | sendDone (n : SockId) (ok : Bool) (keep : Bool)
  | closeDone (n : SockId)
  | rxTcp (n : SockId) (avail : List Byte) (k : Nat)
  | rxUdp (n : SockId) (ip : Quad) (port : Half) (payload : List Byte)
  | rxEof (n : SockId)
  | rxError (n : SockId) (keep : Bool)
  | rxDhcpDeliver (n : SockId)
  | rxIpraw (n : SockId)
  | probeDone (p : Nat) (reachable : Bool)
  | pingExpire (p : Nat)
  | dhcpExpire
  deriving DecidableEq, Repr

/-- A request on the input `life` (70_reset_and_hazards.md R440). -/
inductive LifeReq where
  | soft
  | coldOn
  | powerOff
  | destroy
  deriving DecidableEq, Repr

/-- One unit of input in one of the formats of 30_encoding.md R110. The socket of an SCMD, SMODE, DHCPIN
or ICMPIN unit is not in its bytes: it is the socket whose command byte, mode byte or SEND the unit is. -/
inductive Packet where
  /-- `BUS`, the 25-bit record of R111. -/
  | bus (record : BitVec 25)
  /-- `SCMD`, the byte written to `S[n].CR`. -/
  | scmd (n : SockId) (code : Byte)
  /-- `SMODE`, the byte OPEN finds in `S[n].MR`. -/
  | smode (n : SockId) (mode : Byte)
  /-- `DHCPIN`, one UDP payload sent to the DHCP server port by socket n. -/
  | dhcpin (n : SockId) (data : List Byte)
  /-- `ICMPIN`, one IPRAW payload of socket n, sent under the protocol id `proto`. -/
  | icmpin (n : SockId) (proto : Byte) (payload : List Byte)
  /-- `FCMD`, bytes written to the facade's data port. -/
  | fcmd (bytes : List Byte)
  /-- An agent step. -/
  | event (e : Event)
  /-- A lifecycle request. -/
  | life (r : LifeReq)
  deriving DecidableEq, Repr

/-- What may reach the block between two steps: a unit it decodes, an access to a facade port that is no
command byte, or a change of an input line (10_state.md R70). -/
inductive Stimulus where
  /-- A unit for the decoder; writes to `fport_data` are `.op (.fcmd bytes)`, one byte or several in a row. -/
  | op (p : Packet)
  /-- A read of `fport_data` (47_firmware_facade.md R360). -/
  | portRead
  /-- A read of `fport_status`. -/
  | statusRead
  /-- A write of `fport_status`, which is ignored. -/
  | statusWrite (b : Byte)
  /-- Wall-clock time advances (`now`, 60_exceptions.md R413). -/
  | tick (ms : Nat)
  /-- The `seed` input changes (44_network_port.md R288). -/
  | seedLine (seed : Seed)
  /-- The link status the facade would read changes (R373). -/
  | linkLine (b : Byte)
  /-- The port number the network side would offer next changes (R371). -/
  | portLine (p : Half)
  deriving DecidableEq, Repr

/-- Why a unit is no instruction: only an FCMD unit can fail to be one. -/
inductive DecodeError where
  /-- No opcode byte. -/
  | emptyCommand
  /-- The bytes after this opcode are not the arguments R362 lists. -/
  | wrongArguments (opcode : Byte)
  deriving DecidableEq, Repr

/-! ## The decoders -/

/-- BUS (R111): `w` = bit 24, the address = bits 23:8, the data = bits 7:0. -/
def decodeBus (m : AddressMap) (r : BitVec 25) : Instr :=
  let addr : Half := r.extractLsb' 8 16
  let data : Byte := r.extractLsb' 0 8
  if r.getLsbD 24 then
    match locate m (busAddr m addr) with
    | .cMr => .wrCMr data
    | .cIr => .wrCIr data
    | .sCr n => .wrSnCr n data
    | .sIr n => .wrSnIr n data
    | .sDev n .sr => .wrSnSr n data
    | .txWrLo n => .wrSnTxWrLo n data
    | .rxRdLo n => .wrSnRxRdLo n data
    | _ => .wr addr data
  else .rd addr

/-- SCMD (R112, R113): the byte is compared whole. NONE, DISCON and CLOSE come first, as the dispatch tests them
(42_socket_commands.md R200); among equal codes of the others the first wins (DESIGN CHOICE, log 17). -/
def decodeScmd (k : Codes) (n : SockId) (c : Byte) : Instr :=
  if c = codeNone then .scmdNone n
  else if c = k.cmdDiscon then .scmdDiscon n
  else if c = k.cmdClose then .scmdClose n
  else if c = k.cmdOpen then .scmdOpen n
  else if c = k.cmdListen then .scmdListen n
  else if c = k.cmdConnect then .scmdConnect n
  else if c = k.cmdSend then .scmdSend n
  else if c = k.cmdSendMac then .scmdSendMac n
  else if c = k.cmdSendKeep then .scmdSendKeep n
  else if c = k.cmdRecv then .scmdRecv n
  else .scmdUnrecognised n c

/-- SMODE (R116): the protocol nibble is bits 3:0. -/
def decodeSmode (k : Codes) (n : SockId) (mode : Byte) : Instr :=
  let hi : BitVec 4 := mode.extractLsb' 4 4
  let p : BitVec 4 := mode.extractLsb' 0 4
  if p = k.protoTcp then .smodeTcp n hi
  else if p = k.protoUdp then .smodeUdp n hi
  else if p = k.protoIpraw then .smodeIpraw n hi
  else if p = k.protoMacraw then .smodeMacraw n hi
  else if p = k.protoPppoe then .smodePppoe n hi
  else .smodeOther n hi p

/-- The option scan of R124: the value of the first option `want`, reading at most `fuel` options. It stops
at 0xFF, at the end of the frame, and at an option whose length runs past the end. DESIGN CHOICE (log 23): the first
occurrence counts whatever its length. -/
def scanOption (want : Byte) : Nat → List Byte → Option (List Byte)
  | 0, _ => none
  | _ + 1, [] => none
  | fuel + 1, c :: rest =>
    if c = 0x00 then scanOption want fuel rest
    else if c = 0xFF then none
    else
      match rest with
      | [] => none
      | len :: tail =>
        if tail.length < len.toNat then none
        else if c = want then some (tail.take len.toNat)
        else scanOption want fuel (tail.drop len.toNat)

/-- The value of option `want` of a frame, scanning from offset 240 (R124). -/
def dhcpOption (data : List Byte) (want : Byte) : Option (List Byte) :=
  scanOption want data.length (data.drop dhcpMinLen)

/-- `Parse(data)` (45_dhcp_responder.md R302); `none` is an invalid frame. A first option 0x35 of another length than
1 makes the frame invalid, a first option 0x36 of another length than 4 counts as absent (DESIGN CHOICE, log 23). -/
def parseDhcp (data : List Byte) : Option DhcpFrame :=
  if data.length < dhcpMinLen then none
  else if (data.drop 236).take 4 ≠ dhcpCookie then none
  else
    match dhcpOption data 0x35 with
    | some [t] =>
      some {
        htype := data.getD 1 0
        hlen := data.getD 2 0
        xid := quadAt data 4
        flags := half (data.getD 10 0) (data.getD 11 0)
        ciaddr := quadAt data 12
        chaddr := (data.drop 28).take 16
        msgtype := t
        serverId :=
          match dhcpOption data 0x36 with
          | some [a, b, c, d] => some ⟨a, b, c, d⟩
          | _ => none }
    | _ => none

/-- DHCPIN (45_dhcp_responder.md R301). -/
def decodeDhcp (n : SockId) (data : List Byte) : Instr :=
  match parseDhcp data with
  | none => .dhcpInvalid n data
  | some f =>
    if f.msgtype = Config.dhcpDiscover then .dhcpDiscover n f
    else if f.msgtype = Config.dhcpRequest then .dhcpRequest n f
    else .dhcpOther n f

/-- Is this IPRAW payload, sent under protocol id `proto`, an echo request (46_icmp_echo.md R341)? -/
def isEchoRequest (proto : Byte) (payload : List Byte) : Bool :=
  decide (8 ≤ payload.length) && payload.head? == some icmpEchoReq && proto == protoIcmp

/-- ICMPIN (46_icmp_echo.md R341). -/
def decodeIcmp (n : SockId) (proto : Byte) (payload : List Byte) : Instr :=
  if isEchoRequest proto payload then .icmpEchoRequest n payload
  else .icmpOther n proto payload

/-- How many argument bytes follow an opcode, for F_WRBYTES without its data (47_firmware_facade.md R362). -/
def argCount (o : Opcodes) (op : Byte) : Nat :=
  if op = o.wrbytes then 2
  else if op = o.rdbytes then 2
  else if op = o.setaddr then 2
  else if op = o.wrip then 5
  else if op = o.rdip then 1
  else 0

/-- A facade command with the arguments `args`, the data of F_WRBYTES apart (R362, R363: two-byte arguments low
byte first, addresses first octet first). -/
def decodeCommand (o : Opcodes) (op : Byte) (args : List Byte) : Except DecodeError Instr :=
  if args.length ≠ argCount o op then .error (.wrongArguments op)
  else match args with
  | [] =>
    if op = o.getaddr then .ok .fGetaddr
    else if op = o.rdtimer then .ok .fRdtimer
    else if op = o.portno then .ok .fPortno
    else if op = o.swver then .ok .fSwver
    else if op = o.hwver then .ok .fHwver
    else if op = o.link then .ok .fLink
    else if op = o.id then .ok .fId
    else if op = o.errcnt then .ok .fErrcnt
    else .ok (.fUnknown op)
  | [x] => if op = o.rdip then .ok (.fRdip x) else .error (.wrongArguments op)
  | [lo, hi] =>
    if op = o.rdbytes then .ok (.fRdbytes (half hi lo))
    else if op = o.setaddr then .ok (.fSetaddr (half hi lo))
    else .error (.wrongArguments op)
  | [s, a, b, c, d] =>
    if op = o.wrip then .ok (.fWrip s ⟨a, b, c, d⟩) else .error (.wrongArguments op)
  | _ => .error (.wrongArguments op)

/-- FCMD (R125): opcode, arguments, and the data bytes of F_WRBYTES. -/
def decodeFcmd (o : Opcodes) (bytes : List Byte) : Except DecodeError Instr :=
  match bytes with
  | [] => .error .emptyCommand
  | op :: args =>
    if op = o.wrbytes then
      match args with
      | lo :: hi :: data =>
        if data.length = (half hi lo).toNat then .ok (.fWrbytes data) else .error (.wrongArguments op)
      | _ => .error (.wrongArguments op)
    else decodeCommand o op args

/-- An agent step is its own instruction. -/
def decodeEvent : Event → Instr
  | .udpbindDone n r => .ctlUdpbindDone n r
  | .listenDone n r draw => .ctlListenDone n r draw
  | .connectDone n r => .ctlConnectDone n r
  | .sendDone n ok keep => .ctlSendDone n ok keep
  | .closeDone n => .ctlCloseDone n
  | .rxTcp n avail k => .rxTcp n avail k
  | .rxUdp n ip port payload => .rxUdp n ip port payload
  | .rxEof n => .rxEof n
  | .rxError n keep => .rxError n keep
  | .rxDhcpDeliver n => .rxDhcpDeliver n
  | .rxIpraw n => .rxIpraw n
  | .probeDone p r => .probeDone p r
  | .pingExpire p => .pingExpire p
  | .dhcpExpire => .dhcpExpire

/-- A lifecycle request (70_reset_and_hazards.md R440). -/
def decodeLife : LifeReq → Instr
  | .soft => .lifeSoft
  | .coldOn => .lifeColdOn
  | .powerOff => .lifePowerOff
  | .destroy => .lifeDestroy

/-- The decoder: total on every unit; only an FCMD unit can be rejected, by name. -/
def decode (c : Params) : Packet → Except DecodeError Instr
  | .bus r => .ok (decodeBus c.map r)
  | .scmd n code => .ok (decodeScmd c.codes n code)
  | .smode n mode => .ok (decodeSmode c.codes n mode)
  | .dhcpin n data => .ok (decodeDhcp n data)
  | .icmpin n proto payload => .ok (decodeIcmp n proto payload)
  | .fcmd bytes => decodeFcmd c.ops bytes
  | .event e => .ok (decodeEvent e)
  | .life r => .ok (decodeLife r)

/-- The unit whose bits are `w`, for a row of `nbits` bits in whole bytes. 25 to 32 bits are a BUS record.
An 8-bit row does not say its format: the most specific row wins, ties in the table's order (assumption
log 2): an SCMD code, a facade opcode (with operand bytes of zero), a mode byte, an unrecognised command;
socket 0 where the format needs a socket. -/
def tablePacket (c : Params) (nbits w : Nat) : Option Packet :=
  if 25 ≤ nbits ∧ nbits ≤ 32 then
    if w < 2 ^ 25 then some (.bus (BitVec.ofNat 25 w)) else none
  else if nbits = 8 ∧ w < 256 then
    let b : Byte := BitVec.ofNat 8 w
    let p : BitVec 4 := BitVec.ofNat 4 w
    if c.codes.commands.contains b then some (.scmd 0 b)
    else if c.ops.all.contains b then some (.fcmd (b :: List.replicate (argCount c.ops b) 0))
    else if c.codes.protocols.contains p then some (.smode 0 b)
    else some (.scmd 0 b)
  else none

/-- What the decoder reads from a table row's bits, in the default configuration. -/
def decodeTableWord (nbits w : Nat) : Option Instr :=
  match tablePacket Config.defaults nbits w with
  | some p =>
    match decode Config.defaults p with
    | .ok i => some i
    | .error _ => none
  | none => none

/-! ## The encoder -/

/-- The BUS record of R111. -/
def encodeBus (w : Bool) (addr : Half) (data : Byte) : BitVec 25 :=
  (BitVec.ofBool w ++ addr) ++ data

/-- A write to offset `off` of socket block n. -/
def encodeSockWrite (m : AddressMap) (n : SockId) (off : Nat) (data : Byte) : Packet :=
  .bus (encodeBus true (BitVec.ofNat 16 (sockAddr m n off)) data)

/-- A mode byte (R116). -/
def encodeMode (hi p : BitVec 4) : Byte := hi ++ p

/-- A DHCP frame with the given fields (30_encoding.md R123, R124), zero in every byte the block ignores
but the op byte. -/
def encodeDhcp (f : DhcpFrame) : List Byte :=
  [0x01, f.htype, f.hlen, 0] ++ quadBytes f.xid ++ [0, 0] ++ halfBytes f.flags ++ quadBytes f.ciaddr
    ++ List.replicate 12 0 ++ f.chaddr ++ List.replicate 192 0 ++ dhcpCookie
    ++ [0x35, 0x01, f.msgtype]
    ++ (match f.serverId with
        | some q => [0x36, 0x04] ++ quadBytes q
        | none => [])
    ++ [0xFF]

/-- The unit of a well-formed instruction. -/
def encode (c : Params) : Instr → Packet
  | .rd addr => .bus (encodeBus false addr 0)
  | .wr addr data => .bus (encodeBus true addr data)
  | .wrCMr data => .bus (encodeBus true (BitVec.ofNat 16 c.map.cMr) data)
  | .wrCIr data => .bus (encodeBus true (BitVec.ofNat 16 c.map.cIr) data)
  | .wrSnCr n code => encodeSockWrite c.map n c.map.oCr code
  | .wrSnIr n mask => encodeSockWrite c.map n c.map.oIr mask
  | .wrSnSr n data => encodeSockWrite c.map n c.map.oSr data
  | .wrSnTxWrLo n data => encodeSockWrite c.map n (c.map.oTxWr + 1) data
  | .wrSnRxRdLo n data => encodeSockWrite c.map n (c.map.oRxRd + 1) data
  | .scmdNone n => .scmd n codeNone
  | .scmdOpen n => .scmd n c.codes.cmdOpen
  | .scmdListen n => .scmd n c.codes.cmdListen
  | .scmdConnect n => .scmd n c.codes.cmdConnect
  | .scmdDiscon n => .scmd n c.codes.cmdDiscon
  | .scmdClose n => .scmd n c.codes.cmdClose
  | .scmdSend n => .scmd n c.codes.cmdSend
  | .scmdSendMac n => .scmd n c.codes.cmdSendMac
  | .scmdSendKeep n => .scmd n c.codes.cmdSendKeep
  | .scmdRecv n => .scmd n c.codes.cmdRecv
  | .scmdUnrecognised n code => .scmd n code
  | .smodeTcp n hi => .smode n (encodeMode hi c.codes.protoTcp)
  | .smodeUdp n hi => .smode n (encodeMode hi c.codes.protoUdp)
  | .smodeIpraw n hi => .smode n (encodeMode hi c.codes.protoIpraw)
  | .smodeMacraw n hi => .smode n (encodeMode hi c.codes.protoMacraw)
  | .smodePppoe n hi => .smode n (encodeMode hi c.codes.protoPppoe)
  | .smodeOther n hi p => .smode n (encodeMode hi p)
  | .ctlUdpbindDone n r => .event (.udpbindDone n r)
  | .ctlListenDone n r draw => .event (.listenDone n r draw)
  | .ctlConnectDone n r => .event (.connectDone n r)
  | .ctlSendDone n ok keep => .event (.sendDone n ok keep)
  | .ctlCloseDone n => .event (.closeDone n)
  | .rxTcp n avail k => .event (.rxTcp n avail k)
  | .rxUdp n ip port payload => .event (.rxUdp n ip port payload)
  | .rxEof n => .event (.rxEof n)
  | .rxError n keep => .event (.rxError n keep)
  | .rxDhcpDeliver n => .event (.rxDhcpDeliver n)
  | .rxIpraw n => .event (.rxIpraw n)
  | .probeDone p r => .event (.probeDone p r)
  | .pingExpire p => .event (.pingExpire p)
  | .dhcpExpire => .event .dhcpExpire
  | .dhcpDiscover n f => .dhcpin n (encodeDhcp f)
  | .dhcpRequest n f => .dhcpin n (encodeDhcp f)
  | .dhcpOther n f => .dhcpin n (encodeDhcp f)
  | .dhcpInvalid n data => .dhcpin n data
  | .icmpEchoRequest n payload => .icmpin n protoIcmp payload
  | .icmpOther n proto payload => .icmpin n proto payload
  | .fWrbytes data =>
    .fcmd (c.ops.wrbytes :: loByte (BitVec.ofNat 16 data.length) :: hiByte (BitVec.ofNat 16 data.length) :: data)
  | .fRdbytes count => .fcmd [c.ops.rdbytes, loByte count, hiByte count]
  | .fSetaddr addr => .fcmd [c.ops.setaddr, loByte addr, hiByte addr]
  | .fGetaddr => .fcmd [c.ops.getaddr]
  | .fRdtimer => .fcmd [c.ops.rdtimer]
  | .fWrip slot ip => .fcmd (c.ops.wrip :: slot :: quadBytes ip)
  | .fRdip slot => .fcmd [c.ops.rdip, slot]
  | .fPortno => .fcmd [c.ops.portno]
  | .fSwver => .fcmd [c.ops.swver]
  | .fHwver => .fcmd [c.ops.hwver]
  | .fLink => .fcmd [c.ops.link]
  | .fId => .fcmd [c.ops.id]
  | .fErrcnt => .fcmd [c.ops.errcnt]
  | .fUnknown opcode => .fcmd [opcode]
  | .lifeSoft => .life .soft
  | .lifeColdOn => .life .coldOn
  | .lifePowerOff => .life .powerOff
  | .lifeDestroy => .life .destroy

end Sys2Proof
end

