-- ==== Sys2Proof/Machine/State.lean ====
section
/-! DEFINITION. The state of the block as plain data (10_state.md), the reasons a step can stop, and the state right after the construction's cold reset. -/

namespace Sys2Proof.Machine

open Sys2Proof

/-- The stored bytes of the window, sparse: (address, byte) pairs, addresses strictly rising, no entry equal
to what an unlisted address reads as (10_state.md R20). Interrupt, status, TX_FSR, TX_RD, RX_RSR, RX_WR and
`C.IR` bytes have no cell: they are views of the hidden state (log 5). -/
abbrev Memory := List Host.Cell

/-- What an unlisted address reads as: "a byte never written since a cold reset returns 0x00"
(40_register_access.md R151). -/
def Memory.unlisted : Byte := 0x00

/-- The socket statuses the block can produce (10_state.md R44). -/
inductive Status where
  | closed
  | init
  | listen
  | established
  | closing
  | closeWait
  | udp
  | ipraw
  deriving DecidableEq, Repr

/-- The one in-flight operation of a control engine (10_state.md R60 `op`). -/
inductive CtlOp where
  | none
  | udpBind
  | listen
  | connect (timeoutMs : Nat)
  | send
  | close (hadConn : Bool)
  deriving DecidableEq, Repr

/-- The hidden record `st[n]` (10_state.md R60; its `index` is the position in `State.socks`), and the
socket interrupt register `S[n].IR`. -/
structure Sock where
  /-- `status`, also what `S[n].SR` shows (R44). -/
  status : Status
  /-- `conn`, the connection or datagram endpoint. -/
  conn : Option Handle
  /-- `lsn`, the listening endpoint. -/
  lsn : Option Handle
  /-- `tx_rd`, also what `S[n].TX_RD` shows. -/
  txRd : Half
  /-- `tx_wr`, the mirror of `S[n].TX_WR`. -/
  txWr : Half
  /-- `rx_rd`, the mirror of `S[n].RX_RD`. -/
  rxRd : Half
  /-- `rx_wr`, also what `S[n].RX_WR` shows. -/
  rxWr : Half
  /-- `recvEnabled`. -/
  recvEnabled : Bool
  /-- `op`. -/
  op : CtlOp
  /-- `S[n].IR` (R43). -/
  ir : Byte
  deriving DecidableEq, Repr

/-- `st[n]` after any reset (10_state.md R60). -/
def Sock.reset : Sock where
  status := .closed
  conn := none
  lsn := none
  txRd := 0
  txWr := 0
  rxRd := 0
  rxWr := 0
  recvEnabled := false
  op := .none
  ir := 0

/-- The responder state of an exchange (10_state.md R62); WAIT_REQUEST is the absence of an exchange. -/
inductive DhcpState where
  | awaitingRequest
  | done
  deriving DecidableEq, Repr

/-- The DHCP exchange (10_state.md R62). -/
structure DhcpExchange where
  state : DhcpState
  clientIp : Quad
  serverIp : Quad
  xid : Quad
  /-- 16 bytes. -/
  chaddr : List Byte
  /-- The prebuilt OFFER, later the ACK: `DHCP_FRAME_LEN` bytes. -/
  buf : List Byte
  deliverable : Bool
  /-- Wall-clock milliseconds. -/
  deadline : Nat
  sock : SockId
  deriving DecidableEq, Repr

/-- The outcome of a reachability probe (10_state.md R63). -/
inductive PingOutcome where
  | pending
  | reachable
  | unreachable
  deriving DecidableEq, Repr

/-- A pending ping (10_state.md R63). -/
structure Ping where
  target : Quad
  payload : List Byte
  outcome : PingOutcome
  deriving DecidableEq, Repr

/-- Where the facade's parser is inside a command (47_firmware_facade.md R361). -/
inductive FaPhase where
  | idle
  | args (op : Byte) (bytes : List Byte)
  | data (left : Nat)
  deriving DecidableEq, Repr

/-- The facade's state (47_firmware_facade.md R361). -/
structure Facade where
  addr : Half
  ip : Vector Quad 8
  phase : FaPhase
  out : List Byte
  err : Byte
  t0 : Nat
  deriving DecidableEq, Repr

/-- `fa` after a lifecycle reset at time `now` (70_reset_and_hazards.md R444). -/
def Facade.reset (now : Nat) : Facade where
  addr := 0
  ip := Vector.replicate 8 ⟨0, 0, 0, 0⟩
  phase := .idle
  out := []
  err := 0
  t0 := now

/-- A request of the block to the network side, with the arguments of 44_network_port.md R281. -/
inductive NetReq where
  | connectTcp (ip : Quad) (dport sport : Half) (timeoutMs : Nat)
  | listenTcp (port : Half) (backlog : Nat)
  | openUdp (port : Half) (group : Option Quad) (ttl : Byte)
  | sendStream (h : Handle) (data : List Byte)
  | sendDatagram (h : Handle) (ip : Quad) (port : Half) (data : List Byte)
  | recvStream (h : Handle)
  | recvDatagram (h : Handle) (maxSize : Nat)
  | close (h : Handle)
  | reservePort
  | probe (target : Quad)
  deriving DecidableEq, Repr

/-- The whole state. -/
structure State where
  /-- The stored bytes of the window (R20). -/
  mem : Memory
  /-- `st[0..3]` and `S[0..3].IR` (R60, R43). -/
  socks : Vector Sock 4
  /-- `dhcp` (R62). -/
  dhcp : Option DhcpExchange
  /-- `pings`, oldest first (R63). -/
  pings : List Ping
  /-- `prov`, a list without repeats (R64). -/
  prov : List Half
  /-- `released`, a list without repeats (R64). -/
  released : List Half
  /-- `alive` (R65). -/
  alive : Bool
  /-- `fa` (R66). -/
  fa : Facade
  /-- The seed sampled at the last seeding reset (44_network_port.md R288, 45_dhcp_responder.md R304). -/
  seed : Seed
  /-- Input `now`, wall-clock milliseconds (R70, 60_exceptions.md R413). -/
  now : Nat
  /-- Input `seed`, the host discovery result (R70). -/
  seedIn : Seed
  /-- The link status byte of the network side (47_firmware_facade.md R373, a draw at each read). -/
  linkIn : Byte
  /-- The port number the network side is about to offer (47_firmware_facade.md R371, a draw). -/
  portIn : Half
  /-- What will reach the block, in order: the schedule of its agents and of its environment (log 1). -/
  inputs : List Stimulus
  /-- Output `rdata`: the result of the last `RD` (R70). -/
  rdata : Byte
  /-- The result of the last read of `fport_data` (47_firmware_facade.md R360). -/
  fdata : Byte
  /-- The result of the last read of `fport_status` (47_firmware_facade.md R360). -/
  fstatus : Byte
  /-- How often output `notice` has pulsed (60_exceptions.md R408). -/
  notices : Nat
  /-- The requests made to the network side, oldest first (44_network_port.md R281). -/
  netLog : List NetReq
  /-- The model's own: the next unused handle token (log 6). -/
  nextHandle : Handle
  /-- The model's own: how many free values have been used (log 8). -/
  freeUsed : Nat
  /-- The configuration record (00_scope.md R6, log 3). -/
  cfg : Config.Params
  deriving DecidableEq, Repr

/-- The machine's faults: none. "The block never faults and is never stuck, so `fault` and `stuck` do not
occur" (93_implementation_defined.md); "Nothing the guest can write makes the block fault or trap"
(30_encoding.md R127). -/
inductive Fault where
  deriving DecidableEq, Repr

/-- The refusals: the cases to which the spec itself assigns no next state (60_exceptions.md R409 class (e)). -/
inductive Refusal where
  /-- A bus transaction or port access after `destroy` (70_reset_and_hazards.md R445). Safe: the spec gives
  it no meaning. -/
  | destroyed
  /-- Hazard H2: a command other than DISCON or CLOSE over a busy command byte (42_socket_commands.md R200).
  Safe. -/
  | commandWhileBusy
  /-- Hazard H3: SEND with more than one ring of bytes between the TX cursors (R207). Safe. -/
  | sendOverrun
  /-- Hazard H6: commit of `S[n].RX_RD` beyond `S[n].RX_WR` (40_register_access.md R154). Safe. -/
  | rxReadPastWrite
  /-- F_PORTNO when every port 1..65535 is already in `prov`: the draw of 47_firmware_facade.md R371 has no
  value (log 9). Safe. -/
  | noFreePort
  /-- An instruction without a meaning; raised by exec's own arms only, and by none of them now. Safe. -/
  | notModelled (mnemonic : String)
  deriving DecidableEq, Repr

/-- What a meaning answers. -/
abbrev Result := Host.Outcome State Fault Refusal

/-- The window after the cold reset of the construction, with the illustrative seed (70_reset_and_hazards.md
R442, R448): `C.GAR`, `C.SUBR`, `C.SHAR`, `C.SIPR`, `C.RTR`, `C.RCR`, `C.RMSR`, `C.TMSR`, `C.PTIMER`; bytes of
value 00 are unlisted. -/
def resetMemory : Memory :=
  [(0x0001, 0xC0), (0x0002, 0xA8), (0x0003, 0x01), (0x0004, 0x01),
   (0x0005, 0xFF), (0x0006, 0xFF), (0x0007, 0xFF),
   (0x0009, 0x02), (0x000C, 0x12), (0x000D, 0x34), (0x000E, 0x56),
   (0x000F, 0xC0), (0x0010, 0xA8), (0x0011, 0x01), (0x0012, 0x32),
   (0x0017, 0x07), (0x0018, 0xD0), (0x0019, 0x08), (0x001A, 0x55), (0x001B, 0x55), (0x0028, 0x28)]

/-- The machine after the construction's `cold_on` (70_reset_and_hazards.md R440, R442) at time 0, with the
default parameters and the illustrative seed on the seed line (logs 3 and 4), nothing scheduled. -/
def State.reset : State where
  mem := resetMemory
  socks := Vector.replicate 4 Sock.reset
  dhcp := none
  pings := []
  prov := []
  released := []
  alive := true
  fa := Facade.reset 0
  seed := Config.illustrativeSeed
  now := 0
  seedIn := Config.illustrativeSeed
  linkIn := 0
  portIn := 0
  inputs := []
  rdata := 0
  fdata := 0
  fstatus := 0
  notices := 0
  netLog := []
  nextHandle := 0
  freeUsed := 0
  cfg := Config.defaults

end Sys2Proof.Machine
end

