-- ==== Sys2Proof/Machine/Flags.lean ====
section
/-! DEFINITION. The flag computations: the status code, the bits of the socket interrupt registers, the summary `C.IR` derived from them, the level of the interrupt outputs, and the facade's status byte. -/

namespace Sys2Proof.Machine

open Sys2Proof

/-- The byte in `S[n].SR` (30_encoding.md R114). -/
def statusCode (k : Config.Codes) : Status → Byte
  | .closed => k.srClosed
  | .init => k.srInit
  | .listen => k.srListen
  | .established => k.srEstablished
  | .closing => k.srClosing
  | .closeWait => k.srCloseWait
  | .udp => k.srUdp
  | .ipraw => k.srIpraw

/-- The new value of `S[n].IR` when bit `b` is raised (60_exceptions.md R403). -/
def raisedBits (ir b : Byte) : Byte := ir ||| b

/-- The new value of `S[n].IR` when the guest writes `v` to it, `mask` being the defined bits
(40_register_access.md R155). -/
def clearedBits (mask ir v : Byte) : Byte := ir &&& ~~~v &&& mask

/-- Bit n of `C.IR`: 1 iff `S[n].IR` is not zero (10_state.md R24). -/
def summaryBit (ir : Byte) (n : Nat) : Byte := if ir = 0 then 0 else 1 <<< n

/-- `derive()` (60_exceptions.md R403): `C.IR` from the four socket interrupt registers. -/
def deriveIr (ir0 ir1 ir2 ir3 : Byte) : Byte :=
  summaryBit ir0 0 ||| summaryBit ir1 1 ||| summaryBit ir2 2 ||| summaryBit ir3 3

/-- `fport_status` as read: bit 0 `IN_READY` always 1, bit 1 `OUT_VALID`, bits 7:2 zero
(47_firmware_facade.md R360). -/
def facadeStatus (out : List Byte) : Byte := if out = [] then 0x01 else 0x03

end Sys2Proof.Machine
end

