-- ==== Sys2Proof/Machine/Ops.lean ====
section
/-! DEFINITION. The named operations every meaning is written over: the window's storage, the socket records, raising an interrupt bit (the block's "trap entry") and acknowledging it (its "return"), the network side's requests and handles, and free values. -/

namespace Sys2Proof.Machine

open Sys2Proof

/-! ## Storage of the window -/

/-- The stored byte at an address. -/
def Memory.read : Memory → Nat → Byte
  | [], _ => Memory.unlisted
  | (b, w) :: m, a => if b = a then w else Memory.read m a

/-- Put an entry where its address belongs. -/
def Memory.insert : Memory → Nat → Byte → Memory
  | [], a, v => [(a, v)]
  | (b, w) :: m, a, v => if a < b then (a, v) :: (b, w) :: m else (b, w) :: Memory.insert m a v

/-- Drop every entry of an address. -/
def Memory.erase (m : Memory) (a : Nat) : Memory := m.filter (fun c => c.1 != a)

/-- Store a byte, keeping the canonical form: a byte equal to what an unlisted address reads as is not
listed. -/
def Memory.write (m : Memory) (a : Nat) (v : Byte) : Memory :=
  if v = Memory.unlisted then Memory.erase m a else Memory.insert (Memory.erase m a) a v

/-- `MemWrite(a, n, v)` (00_scope.md R11): store bytes at ascending addresses. -/
def Memory.writeList : Memory → Nat → List Byte → Memory
  | m, _, [] => m
  | m, a, v :: vs => Memory.writeList (Memory.write m a v) (a + 1) vs

/-- Every listed address lies above `lo` and the canonical form holds. -/
def Memory.wfAbove (lo : Nat) : Memory → Bool
  | [] => true
  | (b, w) :: m => decide (lo ≤ b) && decide (w ≠ Memory.unlisted) && Memory.wfAbove (b + 1) m

/-- The canonical form: addresses strictly rising, no entry equal to what an unlisted address reads as. -/
def Memory.wf (m : Memory) : Bool := Memory.wfAbove 0 m

/-- `M[a]` of a stored byte, raw (00_scope.md R11). R11 gives `M[a]` for a below 0x8000: in a configuration that puts
a register or a ring at 0x8000 or above, or over a device-owned byte, it is the cell of memory there (DESIGN CHOICE,
log 17). -/
def State.load (s : State) (a : Nat) : Byte := Memory.read s.mem a

/-- `M[a] <- v`, raw (00_scope.md R11); beyond the window and under a device-owned byte as `State.load` says
(DESIGN CHOICE, log 17). -/
def State.poke (s : State) (a : Nat) (v : Byte) : State :=
  { s with mem := Memory.write s.mem a v }

/-- `M[a..] <- bytes`, raw (00_scope.md R11). -/
def State.pokeList (s : State) (a : Nat) (bytes : List Byte) : State :=
  { s with mem := Memory.writeList s.mem a bytes }

/-! ## Socket records -/

/-- `st[n]` and `S[n].IR`. -/
def State.sock (s : State) (n : SockId) : Sock := s.socks[n.val]

/-- Replace the record of socket n. -/
def State.setSock (s : State) (n : SockId) (k : Sock) : State :=
  { s with socks := s.socks.set n.val k }

/-- `C.IR` (10_state.md R24). -/
def State.cIr (s : State) : Byte :=
  deriveIr (s.sock 0).ir (s.sock 1).ir (s.sock 2).ir (s.sock 3).ir

/-- Output `irq` (60_exceptions.md R404). -/
def State.irq (s : State) : Bool := s.cIr != 0

/-- Output `sock_irq[n]` (60_exceptions.md R403). -/
def State.sockIrq (s : State) (n : SockId) : Bool := (s.sock n).ir != 0

/-- `S[n].CR <- v` (10_state.md R42). -/
def State.setCr (s : State) (n : SockId) (v : Byte) : State := 
  s.poke (sockAddr s.cfg.map n s.cfg.map.oCr) v

/-- `st[n].op <- o`. -/
def State.setOp (s : State) (n : SockId) (o : CtlOp) : State :=
  s.setSock n { s.sock n with op := o }

/-- The last line of every completion rule: `st[n].op <- none; S[n].CR <- 0x00` (43_engines.md R240). -/
def State.finishOp (s : State) (n : SockId) : State := (s.setOp n .none).setCr n 0x00

/-! ## Events: raise and acknowledge (60_exceptions.md R400, R403, R405) -/

/-- `raise_int(n, B)` (60_exceptions.md R403): the block's one "trap entry". It sets the bit; `C.IR`, `irq` and
`sock_irq[n]` follow because they are derived; nothing else changes. -/
def State.raiseInt (s : State) (n : SockId) (b : Byte) : State :=
  s.setSock n { s.sock n with ir := raisedBits (s.sock n).ir b }

/-- The guest's acknowledge, a write of `v` to `S[n].IR` (60_exceptions.md R405, 40_register_access.md R155):
the block's "trap return". -/
def State.ackInt (s : State) (n : SockId) (v : Byte) : State :=
  s.setSock n { s.sock n with ir := clearedBits s.cfg.codes.intMask (s.sock n).ir v }

/-- One pulse of `notice` (60_exceptions.md R408). -/
def State.pulseNotice (s : State) : State := { s with notices := s.notices + 1 }

/-! ## The network side (44_network_port.md) -/

/-- A request to the network side (R281). -/
def State.ask (s : State) (r : NetReq) : State := { s with netLog := s.netLog ++ [r] }

/-- Take the next handle token: two live handles are never equal (R281). -/
def State.takeHandle (s : State) : State := { s with nextHandle := s.nextHandle + 1 }

/-- Ask the network side to close a handle, if there is one (R281). -/
def State.closeHandle (s : State) : Option Handle → State
  | none => s
  | some h => s.ask (.close h)

/-- Close both handles of socket n and null them (43_engines.md R247, 70_reset_and_hazards.md R441). -/
def State.closeHandles (s : State) (n : SockId) : State :=
  let t := (s.closeHandle (s.sock n).conn).closeHandle (s.sock n).lsn
  t.setSock n { t.sock n with conn := none, lsn := none }

/-- The "quiet internal close" of the connection handle (60_exceptions.md R410). -/
def State.dropConn (s : State) (n : SockId) : State :=
  let t := s.closeHandle (s.sock n).conn
  t.setSock n { t.sock n with conn := none }

/-! ## Sets of ports and free values -/

/-- Add to a set without repeats. -/
def portInsert (l : List Half) (p : Half) : List Half := if l.contains p then l else l ++ [p]

/-- Remove from a set. -/
def portErase (l : List Half) (p : Half) : List Half := l.filter (fun q => q != p)

/-- `k` bytes the spec does not state (log 8). -/
def freeBytes (used k : Nat) : List Byte := (List.range k).map (fun i => Config.freeByte (used + i))

end Sys2Proof.Machine
end

