-- ==== Sys2Proof/Machine/Ring.lean ====
section
/-! DEFINITION. Ring geometry from the size selectors, cursor arithmetic, and the two transfer primitives (41_ring_buffers.md). -/

namespace Sys2Proof.Machine

open Sys2Proof

/-! ## Geometry (R181, R182) -/

/-- `1024 << sel[2k+1:2k]`: the size socket k requests (R181). -/
def reqSize (sel : Byte) (k : Nat) : Nat := 1024 <<< ((sel.toNat >>> (2 * k)) % 4)

/-- The sum of the sizes the sockets below k request (R181). -/
def ringOffset (sel : Byte) : Nat → Nat
  | 0 => 0
  | k + 1 => ringOffset sel k + reqSize sel k

/-- The effective size (R182): 0 if the ring would leave its bank of `bank` bytes. -/
def effectiveSize (bank : Nat) (sel : Byte) (n : SockId) : Nat :=
  if ringOffset sel n.val + reqSize sel n.val ≤ bank then reqSize sel n.val else 0

/-- `txbase(n)` (R181). -/
def State.txBase (s : State) (n : SockId) : Nat :=
  s.cfg.map.txBankBase + ringOffset (s.load s.cfg.map.cTmsr) n.val

/-- `rxbase(n)` (R181). -/
def State.rxBase (s : State) (n : SockId) : Nat :=
  s.cfg.map.rxBankBase + ringOffset (s.load s.cfg.map.cRmsr) n.val

/-- `txsize(n)` (R182), from the selector as it stands (R183). -/
def State.txSize (s : State) (n : SockId) : Nat :=
  effectiveSize s.cfg.map.bankSize (s.load s.cfg.map.cTmsr) n

/-- `rxsize(n)` (R182). -/
def State.rxSize (s : State) (n : SockId) : Nat :=
  effectiveSize s.cfg.map.bankSize (s.load s.cfg.map.cRmsr) n

/-! ## Fill and free (R185) -/

/-- `tx_used(n)`. -/
def State.txUsed (s : State) (n : SockId) : Nat := ((s.sock n).txWr - (s.sock n).txRd).toNat

/-- `rx_used(n)`. -/
def State.rxUsed (s : State) (n : SockId) : Nat := ((s.sock n).rxWr - (s.sock n).rxRd).toNat

/-- `tx_free(n)`, clamped at 0: what `S[n].TX_FSR` shows (10_state.md R45). -/
def State.txFree (s : State) (n : SockId) : Nat := s.txSize n - s.txUsed n

/-- `rx_free(n)`; where the integer is negative (H5 broken) this is 0, which no guard tells apart. -/
def State.rxFree (s : State) (n : SockId) : Nat := s.rxSize n - s.rxUsed n

/-! ## Transfer primitives (R184, R187, R188) -/

/-- The address cursor `p` has in a ring (R184). -/
def ringAddr (base size p : Nat) : Nat := base + p % size

/-- `RingRead(base, size, p, k)` (R187). `M[a]` is defined for a below 0x8000 only (00_scope.md R11) and
`BANK_SIZE` and the bank bases are open (R6): where a configuration puts a ring beyond the window, its bytes are the
cells of memory there, and where a ring lies over a device-owned byte, the cell under it is read and not the register
(DESIGN CHOICE, log 17). -/
def ringRead (m : Memory) (base size p k : Nat) : List Byte :=
  (List.range k).map (fun i => Memory.read m (ringAddr base size (p + i)))

/-- `RingWrite(base, size, p, bytes)` (R188). In a configuration whose bank reaches past 0x7FFF or lies over
device-owned bytes the bytes go to the cells `ringRead` reads; the bus shows none of them (DESIGN CHOICE, log 17). -/
def ringWrite : Memory → Nat → Nat → Nat → List Byte → Memory
  | m, _, _, _, [] => m
  | m, base, size, p, b :: bs => ringWrite (Memory.write m (ringAddr base size p) b) base size (p + 1) bs

/-- `InitCursors(n)` (42_socket_commands.md R201): the mirrors, the stored bytes of `S[n].TX_WR` and
`S[n].RX_RD`, and `recvEnabled`; the derived registers follow, and have no cell of their own to be stored in (log 17). -/
def State.initCursors (s : State) (n : SockId) : State :=
  let t := s.setSock n { s.sock n with txRd := 0, txWr := 0, rxRd := 0, rxWr := 0, recvEnabled := false }
  (t.pokeList (sockAddr s.cfg.map n s.cfg.map.oTxWr) [0, 0]).pokeList (sockAddr s.cfg.map n s.cfg.map.oRxRd) [0, 0]

/-- `RxCommit(n, bytes)` (43_engines.md R250): bytes, write pointer, self-disable and RECV in one step. The
caller's guard ensures `1 <= len(bytes) <= rx_free(n)`. -/
def State.rxCommit (s : State) (n : SockId) (bytes : List Byte) : State :=
  let k := s.sock n
  let t := { s with mem := ringWrite s.mem (s.rxBase n) (s.rxSize n) k.rxWr.toNat bytes }
  (t.setSock n { k with rxWr := k.rxWr + BitVec.ofNat 16 bytes.length, recvEnabled := false }).raiseInt n
    s.cfg.codes.intRecv

end Sys2Proof.Machine
end

