-- ==== Sys2Proof/Machine/Operands.lean ====
section
/-! DEFINITION. The operand forms: the guest-visible byte at an address, the registers as the rules read them, the connect timeout, the self-loopback and broadcast tests. -/

namespace Sys2Proof.Machine

open Sys2Proof

/-! ## The guest-visible window -/

/-- A byte of a device-owned socket register at this instant (10_state.md R44, R45, R61). -/
def State.devByte (s : State) (n : SockId) : DevByte → Byte
  | .sr => statusCode s.cfg.codes (s.sock n).status
  | .txFsrHi => hiByte (BitVec.ofNat 16 (s.txFree n))
  | .txFsrLo => loByte (BitVec.ofNat 16 (s.txFree n))
  | .txRdHi => hiByte (s.sock n).txRd
  | .txRdLo => loByte (s.sock n).txRd
  | .rxRsrHi => hiByte ((s.sock n).rxWr - (s.sock n).rxRd)
  | .rxRsrLo => loByte ((s.sock n).rxWr - (s.sock n).rxRd)
  | .rxWrHi => hiByte (s.sock n).rxWr
  | .rxWrLo => loByte (s.sock n).rxWr

/-- `M[a]` for every byte of the window: the stored byte, or the view of the hidden state where the register is
device-owned (40_register_access.md R151). -/
def State.peek (s : State) (a : Nat) : Byte :=
  match locate s.cfg.map a with
  | .cIr => s.cIr
  | .sIr n => (s.sock n).ir
  | .sDev n r => s.devByte n r
  | _ => s.load a

/-- `BusRead(addr)` while the block is alive (R151): 0x00 outside the window (20_memory.md R81). -/
def State.busRead (s : State) (addr : Half) : Byte :=
  let a := busAddr s.cfg.map addr
  if Config.winSize ≤ a then 0x00 else s.peek a

/-- `M16[a]` of the guest-visible window (00_scope.md R11). -/
def State.peek16 (s : State) (a : Nat) : Half := half (s.peek a) (s.peek (a + 1))

/-! ## Registers as operands (30_encoding.md R119) -/

/-- `M16[a]` of stored bytes. -/
def State.load16 (s : State) (a : Nat) : Half := half (s.load a) (s.load (a + 1))

/-- The IPv4 operand at an address. -/
def State.loadQuad (s : State) (a : Nat) : Quad :=
  ⟨s.load a, s.load (a + 1), s.load (a + 2), s.load (a + 3)⟩

/-- `C.SIPR`. -/
def State.cSipr (s : State) : Quad := s.loadQuad s.cfg.map.cSipr

/-- `C.SUBR`. -/
def State.cSubr (s : State) : Quad := s.loadQuad s.cfg.map.cSubr

/-- `S[n].MR`. -/
def State.sMr (s : State) (n : SockId) : Byte := s.load (sockAddr s.cfg.map n s.cfg.map.oMr)

/-- `S[n].CR`. -/
def State.sCr (s : State) (n : SockId) : Byte := s.load (sockAddr s.cfg.map n s.cfg.map.oCr)

/-- `S[n].PORT`. -/
def State.sPort (s : State) (n : SockId) : Half := s.load16 (sockAddr s.cfg.map n s.cfg.map.oPort)

/-- `S[n].DIPR`. -/
def State.sDipr (s : State) (n : SockId) : Quad := s.loadQuad (sockAddr s.cfg.map n s.cfg.map.oDipr)

/-- `S[n].DPORT`. -/
def State.sDport (s : State) (n : SockId) : Half := s.load16 (sockAddr s.cfg.map n s.cfg.map.oDport)

/-- `S[n].PROTO`. -/
def State.sProto (s : State) (n : SockId) : Byte := s.load (sockAddr s.cfg.map n s.cfg.map.oProto)

/-- `S[n].TTL`. -/
def State.sTtl (s : State) (n : SockId) : Byte := s.load (sockAddr s.cfg.map n s.cfg.map.oTtl)

/-- The multicast group of a UDP bind: `S[n].DIPR` if MULTI, bit 7 of `S[n].MR` (10_state.md R41), is 1
(44_network_port.md R283). -/
def State.sGroup (s : State) (n : SockId) : Option Quad :=
  if (s.sMr n).getLsbD 7 then some (s.sDipr n) else none

/-- The connect timeout: `floor(C.RTR * C.RCR * RTR_UNIT_US / 1000)` (R119). -/
def State.connectTimeout (s : State) : Nat :=
  (s.load16 s.cfg.map.cRtr).toNat * (s.load s.cfg.map.cRcr).toNat * s.cfg.rtrUnitUs / 1000

/-! ## Tests on operands -/

/-- `self_loopback(n)` (44_network_port.md R285). -/
def State.selfLoopback (s : State) (n : SockId) : Bool :=
  s.sDipr n == s.cSipr && s.sDport n == s.sPort n && !s.released.contains (s.sDport n)

/-- `ip | mask`, octet by octet. -/
def quadOr (x y : Quad) : Quad := ⟨x.a ||| y.a, x.b ||| y.b, x.c ||| y.c, x.d ||| y.d⟩

/-- 255.255.255.255. -/
def quadOnes : Quad := ⟨0xFF, 0xFF, 0xFF, 0xFF⟩

/-- 0.0.0.0. -/
def quadZero : Quad := ⟨0, 0, 0, 0⟩

/-- `is_broadcast(ip)` (45_dhcp_responder.md R304). -/
def State.isBroadcast (s : State) (ip : Quad) : Bool :=
  ip == quadOnes || (quadOr ip s.cSubr == quadOnes && s.cSubr != quadZero)

end Sys2Proof.Machine
end

