-- ==== Sys2Proof/Machine/Life.lean ====
section
/-! DEFINITION. Lifecycle requests and the soft reset they share with the reset bit of `C.MR` (70_reset_and_hazards.md R440 to R445). -/

namespace Sys2Proof.Machine

open Sys2Proof

/-- The first loop of `SoftReset()`, for one socket: engines stopped, handles closed, status CLOSED, command and
interrupt bits cleared; the record is that of a reset socket at once, its mirrors among it (R441). An operation the reset
abandons leaves no request in `netLog` and no close of what the network side had already done for it, such as the
connection of a peer it accepted (R446 "the handles are closed"), only the close of the handles the socket holds (DESIGN
CHOICE, log 24). -/
def State.stopSock (s : State) (n : SockId) : State := ((s.closeHandles n).setSock n Sock.reset).setCr n 0x00

/-- The first loop of `SoftReset()`. -/
def State.stopAll (s : State) : State := (((s.stopSock 0).stopSock 1).stopSock 2).stopSock 3

/-- The seeding lines of `SoftReset()`: the `seed` input is sampled and the four address registers take it
(R441). -/
def State.seedRegs (s : State) : State :=
  let t := { s with seed := s.seedIn }
  (((t.pokeList s.cfg.map.cGar (quadBytes s.seedIn.gateway)).pokeList s.cfg.map.cSubr (quadBytes s.seedIn.subnet)).pokeList
      s.cfg.map.cShar (macBytes s.seedIn.mac)).pokeList s.cfg.map.cSipr (quadBytes s.seedIn.ip)

/-- The `RESET_*` lines of `SoftReset()` (R441). -/
def State.defaultRegs (s : State) : State :=
  ((((s.pokeList s.cfg.map.cRtr (halfBytes s.cfg.resetRtr)).poke s.cfg.map.cRcr s.cfg.resetRcr).poke s.cfg.map.cRmsr
      s.cfg.resetRmsr).poke s.cfg.map.cTmsr s.cfg.resetTmsr).poke s.cfg.map.cPtimer s.cfg.resetPtimer

/-- The second loop of `SoftReset()`: `InitCursors` for every socket. -/
def State.initAll (s : State) : State := (((s.initCursors 0).initCursors 1).initCursors 2).initCursors 3

/-- The last line of `SoftReset()`: the side structures emptied. -/
def State.emptySides (s : State) : State := { s with dhcp := none, pings := [], prov := [], released := [] }

/-- `SoftReset()` (R441), its lines in their order, which tells where two registers of a configuration share a byte.
The lines for device-owned and interrupt registers (`S[n].SR`, `S[n].IR`, `C.IR`, four of `InitCursors`) store nothing in
a byte that such a register shares with another, since it has no cell (DESIGN CHOICE, log 17). -/
def State.softReset (s : State) : State :=
  (s.stopAll.poke s.cfg.map.cMr 0x00).seedRegs.defaultRegs.initAll.emptySides

/-- The facade reset (R444). -/
def State.resetFacade (s : State) : State := { s with fa := Facade.reset s.now }

/-- `soft`, the lifecycle request (R440): the soft reset, then the facade reset. -/
def State.lifeSoft (s : State) : State := s.softReset.resetFacade

/-- `cold_on` (R442). The rule zeroes addresses 0 to 0x7FFF; that the cells of memory at 0x8000 and above, which a
configuration may have, are emptied with them is the model's (DESIGN CHOICE, log 17). -/
def State.coldOn (s : State) : State := ({ s with mem := [] } : State).softReset.resetFacade

/-- `power_off` (R443). Cells of memory at 0x8000 and above are emptied with the window, as by `State.coldOn` (DESIGN
CHOICE, log 17). -/
def State.powerOff (s : State) : State := ({ s.stopAll.emptySides with mem := [] } : State).initAll.resetFacade

/-- `destroy` (R445): `SoftReset()` without the seeding lines, then not alive. -/
def State.destroy (s : State) : State :=
  { (s.stopAll.poke s.cfg.map.cMr 0x00).defaultRegs.initAll.emptySides with alive := false }

/-- A lifecycle request has no effect on a destroyed block: "no later request revives the block" (R445). -/
def lifeRequest (f : State → State) (s : State) : Result := .next (if s.alive then f s else s)

/-- `LIFE.SOFT` (R441, R444). -/
def execLifeSoft (s : State) : Result := lifeRequest State.lifeSoft s

/-- `LIFE.COLD_ON` (R442). -/
def execLifeColdOn (s : State) : Result := lifeRequest State.coldOn s

/-- `LIFE.POWER_OFF` (R443). -/
def execLifePowerOff (s : State) : Result := lifeRequest State.powerOff s

/-- `LIFE.DESTROY` (R445). -/
def execLifeDestroy (s : State) : Result := lifeRequest State.destroy s

end Sys2Proof.Machine
end

