-- ==== Sys2Proof/Machine/Socket.lean ====
section
/-! DEFINITION. The command dispatcher and the socket commands (42_socket_commands.md), and the arms of OPEN that the mode byte selects (30_encoding.md R116). -/

namespace Sys2Proof.Machine

open Sys2Proof

/-! ## Dispatch (R200) -/

/-- The front of a write of a non-zero code to `S[n].CR` (R200): over an operation in flight only DISCON and CLOSE
(`closing`) are admitted; they abandon it, or are absorbed by a close in flight. An abandoned operation records no
request, and no close of what the network side had done for it (DESIGN CHOICE, log 24). -/
def dispatch (closing : Bool) (n : SockId) (rule : State → Result) (s : State) : Result :=
  if s.alive then
    match (s.sock n).op with
    | .none => rule s
    | .close _ => if closing then .next s else .refused .commandWhileBusy
    | _ => if closing then rule (s.setOp n .none) else .refused .commandWhileBusy
  else .refused .destroyed

/-- A command that is over with nothing done: `S[n].CR <- 0x00` (R211 and every failed guard). -/
def State.ignoreCommand (s : State) (n : SockId) : State := s.setCr n 0x00

/-! ## OPEN and its arms (R202) -/

/-- The guard of OPEN: CLOSED, and neither ring disabled (41_ring_buffers.md R182). -/
def State.mayOpen (s : State) (n : SockId) : Bool :=
  (s.sock n).status == .closed && decide (0 < s.txSize n) && decide (0 < s.rxSize n)

/-- `st[n].status <- x`. -/
def State.setStatus (s : State) (n : SockId) (x : Status) : State :=
  s.setSock n { s.sock n with status := x }

/-- OPEN with a TCP mode byte. -/
def openTcp (n : SockId) (s : State) : State :=
  if s.mayOpen n then ((s.initCursors n).setStatus n .init).setCr n 0x00 else s.ignoreCommand n

/-- OPEN with a UDP mode byte: the bind completes later and reads MULTI then (43_engines.md R243, log 21). -/
def openUdp (n : SockId) (s : State) : State :=
  if s.mayOpen n then
    (((s.initCursors n).setStatus n .udp).setOp n .udpBind).setCr n s.cfg.codes.cmdOpen
  else s.ignoreCommand n

/-- OPEN with an IPRAW mode byte: receive is enabled at once. -/
def openIpraw (n : SockId) (s : State) : State :=
  if s.mayOpen n then
    let t := (s.initCursors n).setStatus n .ipraw
    (t.setSock n { t.sock n with recvEnabled := true }).setCr n 0x00
  else s.ignoreCommand n

/-- OPEN with any other mode byte: the socket stays CLOSED, cursors untouched. -/
def openUnsupported (n : SockId) (s : State) : State := s.ignoreCommand n

/-- OPEN reads the protocol nibble of `S[n].MR` (R202, R461). -/
def openByMode (n : SockId) (s : State) : State :=
  match decodeSmode s.cfg.codes n (s.sMr n) with
  | .smodeTcp _ _ => openTcp n s
  | .smodeUdp _ _ => openUdp n s
  | .smodeIpraw _ _ => openIpraw n s
  | _ => openUnsupported n s

/-! ## The other commands -/

/-- LISTEN (R203). -/
def listenRule (n : SockId) (s : State) : State :=
  if (s.sock n).status = .init then
    ((s.setStatus n .listen).setOp n .listen).setCr n s.cfg.codes.cmdListen
  else s.ignoreCommand n

/-- CONNECT (R204): the timeout is taken from `C.RTR` and `C.RCR` now. -/
def connectRule (n : SockId) (s : State) : State :=
  if (s.sock n).status = .init then
    (s.setOp n (.connect s.connectTimeout)).setCr n s.cfg.codes.cmdConnect
  else s.ignoreCommand n

/-- `StartClose(n, v)` (R214). -/
def startClose (n : SockId) (v : Byte) (s : State) : State :=
  let k := s.sock n
  if k.status = .closed then s.ignoreCommand n
  else
    let had := k.conn.isSome && (k.status == .established || k.status == .closeWait)
    let st := if k.status = .closeWait then Status.closeWait else Status.closing
    (s.setSock n { k with recvEnabled := false, status := st, op := .close had }).setCr n v

/-- A status in which SEND and RECV act (R207, R210). -/
def transfers (x : Status) : Bool := x == .established || x == .udp || x == .ipraw

/-- A status in which SEND_MAC and SEND_KEEP act (R208, R209). -/
def keeps (x : Status) : Bool := x == .udp || x == .established

/-- SEND (R207). -/
def sendRule (n : SockId) (s : State) : Result :=
  if transfers (s.sock n).status then
    if s.txSize n < s.txUsed n then .refused .sendOverrun
    else .next ((s.setOp n .send).setCr n s.cfg.codes.cmdSend)
  else .next (s.ignoreCommand n)

/-- `st[n].tx_rd <- st[n].tx_wr` (R186). -/
def State.releaseTx (s : State) (n : SockId) : State :=
  s.setSock n { s.sock n with txRd := (s.sock n).txWr }

/-- SEND_MAC (R208). -/
def sendMacRule (n : SockId) (s : State) : State :=
  if keeps (s.sock n).status then
    ((s.releaseTx n).raiseInt n s.cfg.codes.intSendOk).setCr n 0x00
  else s.ignoreCommand n

/-- SEND_KEEP (R209). -/
def sendKeepRule (n : SockId) (s : State) : State :=
  if keeps (s.sock n).status then
    if (s.sock n).conn = none then (s.raiseInt n s.cfg.codes.intTimeout).setCr n 0x00
    else s.setCr n 0x00
  else s.ignoreCommand n

/-- RECV (R210). -/
def recvRule (n : SockId) (s : State) : State :=
  if transfers (s.sock n).status then
    (s.setSock n { s.sock n with recvEnabled := true }).setCr n 0x00
  else s.ignoreCommand n

/-! ## Meanings of the SCMD rows -/

/-- `NONE` (R200): nothing stored, nothing done. -/
def execScmdNone (_n : SockId) (s : State) : Result :=
  if s.alive then .next s else .refused .destroyed

/-- `OPEN` (R202). -/
def execScmdOpen (n : SockId) (s : State) : Result :=
  dispatch false n (fun t => .next (openByMode n t)) s

/-- `LISTEN` (R203). -/
def execScmdListen (n : SockId) (s : State) : Result :=
  dispatch false n (fun t => .next (listenRule n t)) s

/-- `CONNECT` (R204). -/
def execScmdConnect (n : SockId) (s : State) : Result :=
  dispatch false n (fun t => .next (connectRule n t)) s

/-- `DISCON` (R205). -/
def execScmdDiscon (n : SockId) (s : State) : Result :=
  dispatch true n (fun t => .next (startClose n s.cfg.codes.cmdDiscon t)) s

/-- `CLOSE` (R206). -/
def execScmdClose (n : SockId) (s : State) : Result :=
  dispatch true n (fun t => .next (startClose n s.cfg.codes.cmdClose t)) s

/-- `SEND` (R207). -/
def execScmdSend (n : SockId) (s : State) : Result := dispatch false n (sendRule n) s

/-- `SEND_MAC` (R208). -/
def execScmdSendMac (n : SockId) (s : State) : Result :=
  dispatch false n (fun t => .next (sendMacRule n t)) s

/-- `SEND_KEEP` (R209). -/
def execScmdSendKeep (n : SockId) (s : State) : Result :=
  dispatch false n (fun t => .next (sendKeepRule n t)) s

/-- `RECV` (R210). -/
def execScmdRecv (n : SockId) (s : State) : Result :=
  dispatch false n (fun t => .next (recvRule n t)) s

/-- `SCMD_UNRECOGNISED` (R211): command cleared, no state change. -/
def execScmdUnrecognised (n : SockId) (_code : Byte) (s : State) : Result :=
  dispatch false n (fun t => .next (t.ignoreCommand n)) s

/-- A write of `v` to `S[n].CR` (R200): the code is decoded and its command dispatched. -/
def commandWrite (n : SockId) (v : Byte) (s : State) : Result :=
  match decodeScmd s.cfg.codes n v with
  | .scmdNone _ => execScmdNone n s
  | .scmdOpen _ => execScmdOpen n s
  | .scmdListen _ => execScmdListen n s
  | .scmdConnect _ => execScmdConnect n s
  | .scmdDiscon _ => execScmdDiscon n s
  | .scmdClose _ => execScmdClose n s
  | .scmdSend _ => execScmdSend n s
  | .scmdSendMac _ => execScmdSendMac n s
  | .scmdSendKeep _ => execScmdSendKeep n s
  | .scmdRecv _ => execScmdRecv n s
  | _ => execScmdUnrecognised n v s

/-! ## Meanings of the SMODE rows: OPEN of socket n with that mode byte (R202, log 1) -/

/-- `SMODE.TCP`. -/
def execSmodeTcp (n : SockId) (s : State) : Result :=
  dispatch false n (fun t => .next (openTcp n t)) s

/-- `SMODE.UDP`. DESIGN CHOICE (log 1): the nibble is that of the byte presented, MULTI is what the bind
finds in `S[n].MR`; the two are one byte where the unit stands for an OPEN. -/
def execSmodeUdp (n : SockId) (s : State) : Result :=
  dispatch false n (fun t => .next (openUdp n t)) s

/-- `SMODE.IPRAW`. -/
def execSmodeIpraw (n : SockId) (s : State) : Result :=
  dispatch false n (fun t => .next (openIpraw n t)) s

/-- `SMODE.MACRAW`: "selectable but immediately left CLOSED". -/
def execSmodeMacraw (n : SockId) (s : State) : Result :=
  dispatch false n (fun t => .next (openUnsupported n t)) s

/-- `SMODE.PPPOE`: "selectable but immediately left CLOSED". -/
def execSmodePppoe (n : SockId) (s : State) : Result :=
  dispatch false n (fun t => .next (openUnsupported n t)) s

/-- `SMODE.OTHER`: "others stay CLOSED". -/
def execSmodeOther (n : SockId) (s : State) : Result :=
  dispatch false n (fun t => .next (openUnsupported n t)) s

end Sys2Proof.Machine
end

