-- ==== Sys2Proof/Machine/Bus.lean ====
section
/-! DEFINITION. The bus operations RD and WR, and every write side effect but command decode (40_register_access.md). -/

namespace Sys2Proof.Machine

open Sys2Proof

/-! ## Write side effects -/

/-- A write to `C.MR` (R153): bit 7 resets, otherwise the byte is stored. -/
def State.writeCMr (s : State) (v : Byte) : State :=
  if v.getLsbD 7 then s.softReset else s.poke s.cfg.map.cMr v

/-- The commit point of `S[n].TX_WR` (R154). -/
def State.commitTxWr (s : State) (n : SockId) (v : Byte) : State :=
  let t := s.poke (sockAddr s.cfg.map n (s.cfg.map.oTxWr + 1)) v
  t.setSock n { t.sock n with txWr := half (s.load (sockAddr s.cfg.map n s.cfg.map.oTxWr)) v }

/-- The commit point of `S[n].RX_RD` (R154), with the refusal of hazard H6. -/
def State.commitRxRd (s : State) (n : SockId) (v : Byte) : Result :=
  let p := half (s.load (sockAddr s.cfg.map n s.cfg.map.oRxRd)) v
  if s.rxUsed n < (p - (s.sock n).rxRd).toNat then .refused .rxReadPastWrite
  else
    let t := s.poke (sockAddr s.cfg.map n (s.cfg.map.oRxRd + 1)) v
    .next (t.setSock n { t.sock n with rxRd := p })

/-- A bus transaction or port access reaches only a block that is alive (R151, R152). -/
def whenAlive (s : State) (r : Result) : Result := if s.alive then r else .refused .destroyed

/-- `BusWrite(addr, v)` (R152). -/
def busWrite (addr : Half) (v : Byte) (s : State) : Result :=
  whenAlive s
    (match locate s.cfg.map (busAddr s.cfg.map addr) with
      | .outside => .next s
      | .cMr => .next (s.writeCMr v)
      | .cIr => .next s
      | .sCr n => commandWrite n v s
      | .sIr n => .next (s.ackInt n v)
      | .sDev _ _ => .next s
      | .txWrLo n => .next (s.commitTxWr n v)
      | .rxRdLo n => s.commitRxRd n v
      | .plain => .next (s.poke (busAddr s.cfg.map addr) v))

/-! ## Meanings of the BUS rows -/

/-- `RD` (R151): the result stands on `rdata`. -/
def execRd (addr : Half) (s : State) : Result :=
  whenAlive s (.next { s with rdata := s.busRead addr })

/-- `WR` (R152). -/
def execWr (addr : Half) (data : Byte) (s : State) : Result := busWrite addr data s

/-- `WR.C_MR` (R153). -/
def execWrCMr (data : Byte) (s : State) : Result := whenAlive s (.next (s.writeCMr data))

/-- `WR.C_IR` (R156): ignored. -/
def execWrCIr (s : State) : Result := whenAlive s (.next s)

/-- `WR.Sn_CR` (42_socket_commands.md R200). -/
def execWrSnCr (n : SockId) (code : Byte) (s : State) : Result := whenAlive s (commandWrite n code s)

/-- `WR.Sn_IR` (R155). -/
def execWrSnIr (n : SockId) (mask : Byte) (s : State) : Result := whenAlive s (.next (s.ackInt n mask))

/-- `WR.Sn_SR` (R156): ignored. -/
def execWrSnSr (_n : SockId) (s : State) : Result := whenAlive s (.next s)

/-- `WR.Sn_TX_WR_LO` (R154). -/
def execWrSnTxWrLo (n : SockId) (data : Byte) (s : State) : Result :=
  whenAlive s (.next (s.commitTxWr n data))

/-- `WR.Sn_RX_RD_LO` (R154). -/
def execWrSnRxRdLo (n : SockId) (data : Byte) (s : State) : Result := whenAlive s (s.commitRxRd n data)

end Sys2Proof.Machine
end

