-- ==== Sys2Proof/Machine/Dhcp.lean ====
section
/-! DEFINITION. The DHCP responder and the frames it fabricates (45_dhcp_responder.md). -/

namespace Sys2Proof.Machine

open Sys2Proof

/-- The 274 bytes of an OFFER up to the end option (R305, 30_encoding.md R123, R124). -/
def offerFields (f : DhcpFrame) (seed : Seed) (cfg : Config.Params) : List Byte :=
  [0x02, f.htype, f.hlen, 0x00] ++ quadBytes f.xid ++ [0x00, 0x00] ++ halfBytes f.flags
    ++ List.replicate 4 0x00 ++ quadBytes seed.ip ++ quadBytes cfg.dhcpServerIp ++ List.replicate 4 0x00
    ++ f.chaddr ++ List.replicate 192 0x00 ++ Config.dhcpCookie
    ++ [0x35, 0x01, Config.dhcpOffer]
    ++ [0x36, 0x04] ++ quadBytes cfg.dhcpServerIp
    ++ [0x33, 0x04] ++ wordBytes cfg.dhcpLeaseS
    ++ [0x01, 0x04] ++ quadBytes seed.subnet
    ++ [0x03, 0x04] ++ quadBytes seed.gateway
    ++ [0x06, 0x04] ++ quadBytes seed.dns
    ++ [0xFF]

/-- `BuildOffer(f)` (R305): those, padded with zero to `DHCP_FRAME_LEN`; a shorter frame is cut off there (DESIGN
CHOICE, log 17). -/
def buildOffer (f : DhcpFrame) (seed : Seed) (cfg : Config.Params) : List Byte :=
  (offerFields f seed cfg ++ List.replicate (cfg.dhcpFrameLen - 274) 0x00).take cfg.dhcpFrameLen

/-- `expired(now)` (R304). -/
def DhcpExchange.expired (x : DhcpExchange) (now : Nat) : Bool :=
  x.state == .awaitingRequest && decide (x.deadline < now)

/-- May a DISCOVER take the exchange slot (R304)? -/
def slotFree (d : Option DhcpExchange) (now : Nat) : Bool :=
  match d with
  | none => true
  | some x => x.expired now

/-- DISCOVER from socket n (R304). -/
def discoverRule (n : SockId) (f : DhcpFrame) (s : State) : State :=
  if s.isBroadcast (s.sDipr n) && slotFree s.dhcp s.now then
    { s with dhcp := some {
        state := .awaitingRequest
        clientIp := s.seed.ip
        serverIp := s.cfg.dhcpServerIp
        xid := f.xid
        chaddr := f.chaddr
        buf := buildOffer f s.seed s.cfg
        deliverable := true
        deadline := s.now + Config.dhcpDeadlineMs
        sock := n } }
  else s

/-- "server-identifier-or-source-IP" (R306). -/
def serverMatches (f : DhcpFrame) (x : DhcpExchange) : Bool :=
  match f.serverId with
  | some q => q == x.serverIp
  | none => f.ciaddr == x.clientIp

/-- Does a REQUEST match the exchange, in time (R306)? -/
def requestMatches (f : DhcpFrame) (x : DhcpExchange) (now : Nat) : Bool :=
  x.state == .awaitingRequest && decide (now ≤ x.deadline) && f.xid == x.xid && f.chaddr == x.chaddr
    && serverMatches f x

/-- The OFFER mutated into the ACK: byte 242 becomes 05 (R307). -/
def ackBuffer (buf : List Byte) : List Byte := buf.set 242 Config.dhcpAck

/-- REQUEST from socket n (R306). -/
def requestRule (n : SockId) (f : DhcpFrame) (s : State) : State :=
  match s.dhcp with
  | none => s
  | some x =>
    if requestMatches f x s.now then
      { s with dhcp := some { x with
          buf := ackBuffer x.buf, deliverable := true, state := .done, sock := n } }
    else s

/-- `DhcpInput(n, data)` (R301). -/
def dhcpInput (n : SockId) (data : List Byte) (s : State) : State :=
  match decodeDhcp n data with
  | .dhcpDiscover _ f => discoverRule n f s
  | .dhcpRequest _ f => requestRule n f s
  | _ => s

/-- Expiry (R309). -/
def expireRule (s : State) : State :=
  match s.dhcp with
  | some x => if x.expired s.now then { s with dhcp := none } else s
  | none => s

/-- The UDP header ahead of a delivered frame (R310): peer `server_ip`, then "00 43", read as `DHCP_SERVER_PORT`, and
"01 2C", read as `DHCP_FRAME_LEN`, where those parameters are not 67 and 300 (DEDUCED, log 17). -/
def deliveryHeader (cfg : Config.Params) (x : DhcpExchange) : List Byte :=
  quadBytes x.serverIp ++ halfBytes cfg.dhcpServerPort ++ halfBytes (BitVec.ofNat 16 cfg.dhcpFrameLen)

/-- The guard of the delivery to socket n (R310). -/
def mayDeliver (n : SockId) (x : DhcpExchange) (s : State) : Bool :=
  x.deliverable && !x.expired s.now && x.sock == n && (s.sock n).recvEnabled
    && (s.sock n).status == .udp && decide (Config.udpHdr + s.cfg.dhcpFrameLen ≤ s.rxFree n)

/-- Delivery (R310). -/
def deliverRule (n : SockId) (s : State) : State :=
  match s.dhcp with
  | none => s
  | some x =>
    if mayDeliver n x s then
      { s.rxCommit n (deliveryHeader s.cfg x ++ x.buf) with
        dhcp := if x.state = .done then none else some { x with deliverable := false } }
    else s

/-! ## Meanings -/

/-- `DHCP.DISCOVER` (R304). -/
def execDhcpDiscover (n : SockId) (f : DhcpFrame) (s : State) : Result :=
  .next (if s.alive then discoverRule n f s else s)

/-- `DHCP.REQUEST` (R306). -/
def execDhcpRequest (n : SockId) (f : DhcpFrame) (s : State) : Result :=
  .next (if s.alive then requestRule n f s else s)

/-- `DHCP.OTHER` (R308): ignored. -/
def execDhcpOther (_n : SockId) (s : State) : Result := .next s

/-- `DHCP.INVALID` (R303): ignored without error. -/
def execDhcpInvalid (_n : SockId) (s : State) : Result := .next s

/-- `DHCP.EXPIRE` (R309). -/
def execDhcpExpire (s : State) : Result := .next (if s.alive then expireRule s else s)

/-- `RX.DHCP_DELIVER` (R310). -/
def execRxDhcpDeliver (n : SockId) (s : State) : Result := .next (if s.alive then deliverRule n s else s)

end Sys2Proof.Machine
end

