-- ==== Sys2Proof/Machine/Icmp.lean ====
section
/-! DEFINITION. The simulated ICMP echo: pings, probes, the echo reply and its checksum (46_icmp_echo.md). -/

namespace Sys2Proof.Machine

open Sys2Proof

/-! ## The echo reply (R346) -/

/-- The sum of the big-endian 16-bit words of a message, padded with one zero byte if its length is odd
(30_encoding.md R122). -/
def wordSum : List Byte → Nat
  | [] => 0
  | [a] => a.toNat * 256
  | a :: b :: rest => a.toNat * 256 + b.toNat + wordSum rest

/-- `while s > 0xFFFF: s <- (s & 0xFFFF) + (s >> 16)` (R346); `fuel` bounds the number of rounds. -/
def foldCarry : Nat → Nat → Nat
  | 0, s => s
  | fuel + 1, s => if 0xFFFF < s then foldCarry fuel (s % 65536 + s / 65536) else s

/-- `IcmpChecksum(b)` (R346). The sum itself is fuel enough: every round makes it smaller. -/
def icmpChecksum (b : List Byte) : Half := ~~~(BitVec.ofNat 16 (foldCarry (wordSum b) (wordSum b)))

/-- The reply before its checksum: type, code and checksum zero, the rest the request's (R346). -/
def replyBody (req : List Byte) : List Byte := [0x00, 0x00, 0x00, 0x00] ++ req.drop 4

/-- `EchoReply(req)` (R346). -/
def echoReply (req : List Byte) : List Byte :=
  [0x00, 0x00] ++ halfBytes (icmpChecksum (replyBody req)) ++ req.drop 4

/-! ## Pings -/

/-- An echo request appends a pending ping (R342). -/
def pingRule (n : SockId) (payload : List Byte) (s : State) : State :=
  { s with pings := s.pings ++ [{ target := s.sDipr n, payload := payload, outcome := .pending }] }

/-- `IcmpInput(n, data)` (R341). -/
def icmpInput (n : SockId) (data : List Byte) (s : State) : State :=
  match decodeIcmp n (s.sProto n) data with
  | .icmpEchoRequest _ payload => pingRule n payload s
  | _ => s

/-- Probe completion for the ping at position `p` (R344): the answer is asked of the network side. -/
def probeRule (p : Nat) (reachable : Bool) (s : State) : State :=
  match s.pings[p]? with
  | none => s
  | some g =>
    if g.outcome = .pending then
      let t := s.ask (.probe g.target)
      if reachable then { t with pings := t.pings.set p { g with outcome := .reachable } }
      else { t with pings := t.pings.eraseIdx p }
    else s

/-- The first ping that was reached and has this target, and the list without it (R345). -/
def takeReached (target : Quad) : List Ping → Option (Ping × List Ping)
  | [] => none
  | g :: rest =>
    if g.outcome = .reachable ∧ g.target = target then some (g, rest)
    else
      match takeReached target rest with
      | some (h, rest') => some (h, g :: rest')
      | none => none

/-- The header ahead of an IPRAW reply (30_encoding.md R121): absent if `IPRAW_INFO_HDR` is 0, the tabled one if it
is 6. The spec lays out no other; its bytes are free values, counted from `used` (log 8). -/
def iprawHeader (cfg : Config.Params) (used : Nat) (target : Quad) (len : Nat) : List Byte :=
  if cfg.iprawInfoHdr = Config.iprawHdr then quadBytes target ++ halfBytes (BitVec.ofNat 16 len)
  else freeBytes used cfg.iprawInfoHdr

/-- How many of them are free values. -/
def iprawFree (cfg : Config.Params) : Nat := if cfg.iprawInfoHdr = Config.iprawHdr then 0 else cfg.iprawInfoHdr

/-- IPRAW receive (R345). -/
def rxIprawRule (n : SockId) (s : State) : State :=
  if (s.sock n).recvEnabled && (s.sock n).status == .ipraw then
    match takeReached (s.sDipr n) s.pings with
    | none => s
    | some (g, rest) =>
      if s.cfg.iprawInfoHdr + g.payload.length ≤ s.rxFree n then
        let reply := echoReply g.payload
        { s.rxCommit n (iprawHeader s.cfg s.freeUsed g.target reply.length ++ reply) with
          pings := rest, freeUsed := s.freeUsed + iprawFree s.cfg }
      else s
  else s

/-- A reached ping may be removed by the environment (R347). -/
def pingExpireRule (p : Nat) (s : State) : State :=
  match s.pings[p]? with
  | none => s
  | some g => if g.outcome = .reachable then { s with pings := s.pings.eraseIdx p } else s

/-! ## Meanings -/

/-- `ICMP.ECHO_REQUEST` (R342). -/
def execIcmpEchoRequest (n : SockId) (payload : List Byte) (s : State) : Result :=
  .next (if s.alive then pingRule n payload s else s)

/-- `ICMP.OTHER` (R343): treated as sent and dropped. -/
def execIcmpOther (_n : SockId) (s : State) : Result := .next s

/-- `PROBE.DONE` (R344). -/
def execProbeDone (p : Nat) (reachable : Bool) (s : State) : Result :=
  .next (if s.alive then probeRule p reachable s else s)

/-- `RX.IPRAW` (R345). -/
def execRxIpraw (n : SockId) (s : State) : Result := .next (if s.alive then rxIprawRule n s else s)

/-- `PING.EXPIRE` (R347). -/
def execPingExpire (p : Nat) (s : State) : Result := .next (if s.alive then pingExpireRule p s else s)

end Sys2Proof.Machine
end

