-- ==== Sys2Proof/Machine/Engine.lean ====
section
/-! DEFINITION. The completions of the control engines and the steps of the receive engines (43_engines.md). A step whose guard does not hold is not enabled: presented anyway it changes nothing (log 7). -/

namespace Sys2Proof.Machine

open Sys2Proof

/-! ## Control engines (R240) -/

/-- `st[n].conn <- h` for the handle of a positive answer, and receive enabled ("start receive"). -/
def State.attach (s : State) (n : SockId) : State :=
  let t := s.takeHandle
  t.setSock n { t.sock n with conn := some s.nextHandle, recvEnabled := true }

/-- Attach a TCP connection: ESTABLISHED and CON (R244, R245). -/
def State.establish (s : State) (n : SockId) : State :=
  ((s.attach n).setStatus n .established).raiseInt n s.cfg.codes.intCon

/-- Completion of UdpBind (R243): port, MULTI, group and time to live are read in this step, as R243 and
70_reset_and_hazards.md R461 say; it is the part of OPEN in which 10_state.md R41 lets `S[n].MR` be read (DEDUCED,
log 21). -/
def bindDone (n : SockId) (r : BindAnswer) (s : State) : State :=
  let t := s.ask (.openUdp (s.sPort n) (s.sGroup n) (s.sTtl n))
  match r with
  | .ok => (t.attach n).finishOp n
  | .fail => (t.raiseInt n s.cfg.codes.intTimeout).finishOp n
  | .failPermission => ((t.raiseInt n s.cfg.codes.intTimeout).pulseNotice).finishOp n

/-- A listening endpoint the network side keeps is held in `lsn` (R244). -/
def State.keepListener (s : State) (n : SockId) (keeps : Bool) : State :=
  if keeps && (s.sock n).lsn.isNone then
    let t := s.takeHandle
    t.setSock n { t.sock n with lsn := some s.nextHandle }
  else s

/-- Completion of Listen (R244); the backlog of the request is any value (log 22). -/
def listenDone (n : SockId) (r : AcceptAnswer) (draw : ListenDraw) (s : State) : State :=
  let t := (s.ask (.listenTcp (s.sPort n) draw.backlog)).keepListener n draw.keeps
  match r with
  | .accepted => (t.establish n).finishOp n
  | .fail => (t.raiseInt n s.cfg.codes.intTimeout).finishOp n
  | .failPermission => ((t.raiseInt n s.cfg.codes.intTimeout).pulseNotice).finishOp n

/-- Completion of Connect(t) (R245): a self-loopback fails without a request (44_network_port.md R285). -/
def connectDone (n : SockId) (timeoutMs : Nat) (r : ConnectAnswer) (s : State) : State :=
  if s.selfLoopback n then (s.raiseInt n s.cfg.codes.intTimeout).finishOp n
  else
    let t := s.ask (.connectTcp (s.sDipr n) (s.sDport n) (s.sPort n) timeoutMs)
    match r with
    | .connected => (t.establish n).finishOp n
    | .fail => (t.raiseInt n s.cfg.codes.intTimeout).finishOp n

/-- The bytes a SEND drains (R246): `RingRead` where R187 defines it, free bytes where more bytes lie between
the cursors than the ring holds (log 8). -/
def State.drained (s : State) (n : SockId) : List Byte :=
  if s.txUsed n ≤ s.txSize n then
    ringRead s.mem (s.txBase n) (s.txSize n) (s.sock n).txRd.toNat (s.txUsed n)
  else freeBytes s.freeUsed (s.txUsed n)

/-- Free bytes are used once. -/
def State.countFree (s : State) (n : SockId) : State :=
  if s.txUsed n ≤ s.txSize n then s else { s with freeUsed := s.freeUsed + s.txUsed n }

/-- What becomes of a SEND (R246). -/
inductive SendFate where
  /-- Done, or consumed inside the block. -/
  | sent
  /-- Failed without a request to the network side. -/
  | failedInside
  /-- The network side answered failure. -/
  | failedOutside
  deriving DecidableEq, Repr

/-- A draw of the network side's answer to a send request. -/
def sendAnswer (ok : Bool) : SendFate := if ok then .sent else .failedOutside

/-- The case analysis of R246 on the status, for the three statuses a SEND can complete in. -/
def sendRoute (n : SockId) (data : List Byte) (ok : Bool) (s : State) : State × SendFate :=
  let k := s.sock n
  if k.status = .established then
    match k.conn with
    | none => (s, .failedInside)
    | some h => (s.ask (.sendStream h data), sendAnswer ok)
  else if k.status = .udp then
    if s.sDport n = s.cfg.dhcpServerPort then (dhcpInput n data s, .sent)
    else if s.selfLoopback n then (s, .failedInside)
    else
      match k.conn with
      | none => (s, .failedInside)
      | some h => (s.ask (.sendDatagram h (s.sDipr n) (s.sDport n) data), sendAnswer ok)
  else (icmpInput n data s, .sent)

/-- Completion of Send (R246). -/
def sendDone (n : SockId) (ok keep : Bool) (s : State) : State :=
  let (t, fate) := sendRoute n (s.drained n) ok (s.countFree n)
  let u := t.releaseTx n
  match fate with
  | .sent => (u.raiseInt n s.cfg.codes.intSendOk).finishOp n
  | .failedInside => (u.raiseInt n s.cfg.codes.intTimeout).finishOp n
  | .failedOutside =>
    let v := u.raiseInt n s.cfg.codes.intTimeout
    (if keep then v else v.dropConn n).finishOp n

/-- "releases provisionally reserved ports" (R247, 10_state.md R64). -/
def State.releasePort (s : State) (p : Half) : State :=
  if s.prov.contains p then
    { s with prov := portErase s.prov p, released := portInsert s.released p }
  else s

/-- Completion of Close(had_conn) (R247). -/
def closeDone (n : SockId) (hadConn : Bool) (s : State) : State :=
  let t := (((s.closeHandles n).releasePort (s.sPort n)).setStatus n .closed)
  (if hadConn then t.raiseInt n s.cfg.codes.intDiscon else t).finishOp n

/-! ## Receive engines (R241) -/

/-- The part of every TCP or UDP receive guard that the block knows: armed, in that status, with a handle. -/
def State.armed (s : State) (n : SockId) (x : Status) : Bool :=
  (s.sock n).recvEnabled && (s.sock n).status == x && (s.sock n).conn.isSome

/-- The network side is asked for what `Rx[n]` receives (44_network_port.md R281). -/
def State.askReceive (s : State) (n : SockId) : State :=
  match (s.sock n).conn with
  | none => s
  | some h =>
    if (s.sock n).status = .udp then s.ask (.recvDatagram h (s.rxFree n - Config.udpHdr))
    else s.ask (.recvStream h)

/-- TCP receive of the first `k` of the bytes `avail` (R249). -/
def rxTcpRule (n : SockId) (avail : List Byte) (k : Nat) (s : State) : State :=
  if s.armed n .established && decide (1 ≤ k) && decide (k ≤ avail.length) && decide (k ≤ s.rxFree n) then
    (s.askReceive n).rxCommit n (avail.take k)
  else s

/-- The 8-byte header of a received datagram (30_encoding.md R120). -/
def udpHeader (ip : Quad) (port : Half) (k : Nat) : List Byte :=
  quadBytes ip ++ halfBytes port ++ halfBytes (BitVec.ofNat 16 k)

/-- UDP receive of one datagram (R251). -/
def rxUdpRule (n : SockId) (ip : Quad) (port : Half) (payload : List Byte) (s : State) : State :=
  if s.armed n .udp && decide (Config.udpHdr ≤ s.rxFree n) then
    let k := min payload.length (s.rxFree n - Config.udpHdr)
    (s.askReceive n).rxCommit n (udpHeader ip port k ++ payload.take k)
  else s

/-- Remote close (R252): CLOSE_WAIT, and a close scheduled that shows as DISCON. -/
def rxEofRule (n : SockId) (s : State) : State :=
  if s.armed n .established && (s.sock n).op == .none then
    let t := s.askReceive n
    (t.setSock n { t.sock n with status := .closeWait, recvEnabled := false, op := .close true }).setCr n
      s.cfg.codes.cmdDiscon
  else s

/-- Receive failure (R253). -/
def rxErrorRule (n : SockId) (keep : Bool) (s : State) : State :=
  if s.armed n .established || s.armed n .udp then
    let t := (s.askReceive n).raiseInt n s.cfg.codes.intTimeout
    let u := t.setSock n { t.sock n with recvEnabled := false }
    if keep then u else u.dropConn n
  else s

/-! ## Meanings -/

/-- `CTL.UDPBIND_DONE` (R243). -/
def execCtlUdpbindDone (n : SockId) (r : BindAnswer) (s : State) : Result :=
  .next (if s.alive && (s.sock n).op == .udpBind then bindDone n r s else s)

/-- `CTL.LISTEN_DONE` (R244). -/
def execCtlListenDone (n : SockId) (r : AcceptAnswer) (draw : ListenDraw) (s : State) : Result :=
  .next (if s.alive && (s.sock n).op == .listen then listenDone n r draw s else s)

/-- `CTL.CONNECT_DONE` (R245). -/
def execCtlConnectDone (n : SockId) (r : ConnectAnswer) (s : State) : Result :=
  match (s.sock n).op with
  | .connect t => .next (if s.alive then connectDone n t r s else s)
  | _ => .next s

/-- `CTL.SEND_DONE` (R246). -/
def execCtlSendDone (n : SockId) (ok keep : Bool) (s : State) : Result :=
  .next (if s.alive && (s.sock n).op == .send && transfers (s.sock n).status then sendDone n ok keep s else s)

/-- `CTL.CLOSE_DONE` (R247). -/
def execCtlCloseDone (n : SockId) (s : State) : Result :=
  match (s.sock n).op with
  | .close had => .next (if s.alive then closeDone n had s else s)
  | _ => .next s

/-- `RX.TCP` (R249). -/
def execRxTcp (n : SockId) (avail : List Byte) (k : Nat) (s : State) : Result :=
  .next (if s.alive then rxTcpRule n avail k s else s)

/-- `RX.UDP` (R251). -/
def execRxUdp (n : SockId) (ip : Quad) (port : Half) (payload : List Byte) (s : State) : Result :=
  .next (if s.alive then rxUdpRule n ip port payload s else s)

/-- `RX.EOF` (R252). -/
def execRxEof (n : SockId) (s : State) : Result := .next (if s.alive then rxEofRule n s else s)

/-- `RX.ERROR` (R253). -/
def execRxError (n : SockId) (keep : Bool) (s : State) : Result :=
  .next (if s.alive then rxErrorRule n keep s else s)

end Sys2Proof.Machine
end

