-- ==== Sys2Proof/Machine/Facade.lean ====
section
/-! DEFINITION. The firmware facade: its commands, its byte-stream parser, and its ports (47_firmware_facade.md). -/

namespace Sys2Proof.Machine

open Sys2Proof

/-! ## The commands' effects -/

/-- Leave a command with results: they are queued, and the parser is idle (R363). An opcode has discarded
whatever was unread. -/
def State.answer (s : State) (out : List Byte) : State :=
  { s with fa := { s.fa with out := out, phase := .idle } }

/-- Two-byte results are low byte first (R363). -/
def lowFirst (w : Half) : List Byte := [loByte w, hiByte w]

/-- The error counter saturates at 255 (R361, R369). -/
def bumped (e : Byte) : Byte := if e = 0xFF then 0xFF else e + 1

/-- Count one error (R369, R370, R375). -/
def State.countError (s : State) : State := { s with fa := { s.fa with err := bumped s.fa.err } }

/-- One data byte of F_WRBYTES with `left` bytes still to come, this one included (R364). -/
def dataByte (left : Nat) (d : Byte) (s : State) : Result :=
  match busWrite s.fa.addr d s with
  | .next t =>
    .next { t with fa := { t.fa with
      addr := t.fa.addr + 1
      phase := if left ≤ 1 then .idle else .data (left - 1) } }
  | .fault r => .fault r
  | .refused r => .refused r

/-- The data bytes of F_WRBYTES, in order (R364). -/
def writeData : List Byte → State → Result
  | [], s => .next s
  | d :: ds, s =>
    match dataByte (ds.length + 1) d s with
    | .next t => writeData ds t
    | .fault r => .fault r
    | .refused r => .refused r

/-- The count of F_WRBYTES is known: the data bytes follow (R364). -/
def State.beginData (s : State) (count : Nat) : State :=
  { s with fa := { s.fa with out := [], phase := if count = 0 then .idle else .data count } }

/-- `count` bus reads at ascending addresses, modulo 65536 (R365). -/
def readRun (s : State) : Nat → Half → List Byte
  | 0, _ => []
  | k + 1, a => s.busRead a :: readRun s k (a + 1)

/-- The first port number from `p` upwards, modulo 65536, that is not 0 and not in `prov`: any admissible
draw of R371 is reached from some `p` (log 9). -/
def firstFreePort (prov : List Half) : Nat → Half → Option Half
  | 0, _ => none
  | fuel + 1, p =>
    if p ≠ 0 ∧ ¬ prov.contains p then some p else firstFreePort prov fuel (p + 1)

/-! ## Meanings of the FCMD rows -/

/-- `F_WRBYTES` (R364): the whole command, count and data. -/
def execFWrbytes (data : List Byte) (s : State) : Result :=
  whenAlive s (writeData data (s.beginData data.length))

/-- `F_RDBYTES` (R365): all reads in one step. -/
def execFRdbytes (count : Half) (s : State) : Result :=
  whenAlive s
    (let t := s.answer (readRun s count.toNat s.fa.addr)
     .next { t with fa := { t.fa with addr := t.fa.addr + count } })

/-- `F_SETADDR` (R366). -/
def execFSetaddr (addr : Half) (s : State) : Result :=
  whenAlive s (let t := s.answer []; .next { t with fa := { t.fa with addr := addr } })

/-- `F_GETADDR` (R367). -/
def execFGetaddr (s : State) : Result := whenAlive s (.next (s.answer (lowFirst s.fa.addr)))

/-- `F_RDTIMER` (R368): elapsed milliseconds since the last lifecycle reset, 16 bits. -/
def execFRdtimer (s : State) : Result :=
  whenAlive s (.next (s.answer (lowFirst (BitVec.ofNat 16 s.now - BitVec.ofNat 16 s.fa.t0))))

/-- `F_WRIP` (R369). -/
def execFWrip (slot : Byte) (ip : Quad) (s : State) : Result :=
  whenAlive s
    (let t := s.answer []
     if h : slot.toNat < 8 then .next { t with fa := { t.fa with ip := t.fa.ip.set slot.toNat ip h } }
     else .next t.countError)

/-- `F_RDIP` (R370). -/
def execFRdip (slot : Byte) (s : State) : Result :=
  whenAlive s
    (if h : slot.toNat < 8 then .next (s.answer (quadBytes s.fa.ip[slot.toNat]))
     else .next (s.answer [0, 0, 0, 0]).countError)

/-- `F_PORTNO` (R371). -/
def execFPortno (s : State) : Result :=
  whenAlive s
    (match firstFreePort s.prov 65536 s.portIn with
      | some p =>
        let t := (s.ask .reservePort).answer (lowFirst p)
        .next { t with prov := portInsert t.prov p }
      | none => .refused .noFreePort)

/-- `F_SWVER` (R372). -/
def execFSwver (s : State) : Result := whenAlive s (.next (s.answer (lowFirst s.cfg.facadeSwver)))

/-- `F_HWVER` (R372). -/
def execFHwver (s : State) : Result := whenAlive s (.next (s.answer (lowFirst s.cfg.facadeHwver)))

/-- `F_LINK` (R373). -/
def execFLink (s : State) : Result := whenAlive s (.next (s.answer [s.linkIn]))

/-- `F_ID` (R374). -/
def execFId (s : State) : Result := whenAlive s (.next (s.answer (s.cfg.facadeId ++ [0x00])))

/-- `F_ERRCNT` (R376). -/
def execFErrcnt (s : State) : Result := whenAlive s (.next (s.answer [s.fa.err]))

/-- `F_UNKNOWN` (R375): counted and dropped; like any opcode it discards unread results (R363). -/
def execFUnknown (s : State) : Result := whenAlive s (.next (s.answer []).countError)

/-! ## The parser (R361, R363) -/

/-- The arguments of a command are all there: it executes (R363). F_WRBYTES waits for its data. -/
def completeCommand (op : Byte) (args : List Byte) (s : State) : Result :=
  if op = s.cfg.ops.wrbytes then
    match args with
    | [lo, hi] => .next (s.beginData (half hi lo).toNat)
    | _ => .next (s.answer []).countError
  else
    match decodeCommand s.cfg.ops op args with
    | .ok (.fRdbytes count) => execFRdbytes count s
    | .ok (.fSetaddr addr) => execFSetaddr addr s
    | .ok .fGetaddr => execFGetaddr s
    | .ok .fRdtimer => execFRdtimer s
    | .ok (.fWrip slot ip) => execFWrip slot ip s
    | .ok (.fRdip slot) => execFRdip slot s
    | .ok .fPortno => execFPortno s
    | .ok .fSwver => execFSwver s
    | .ok .fHwver => execFHwver s
    | .ok .fLink => execFLink s
    | .ok .fId => execFId s
    | .ok .fErrcnt => execFErrcnt s
    | _ => execFUnknown s

/-- A byte written to `fport_data` (R360, R363). -/
def feedByte (b : Byte) (s : State) : Result :=
  whenAlive s
    (match s.fa.phase with
      | .idle =>
        if argCount s.cfg.ops b = 0 then completeCommand b [] s
        else .next { s with fa := { s.fa with out := [], phase := .args b [] } }
      | .args op bytes =>
        if (bytes ++ [b]).length < argCount s.cfg.ops op then
          .next { s with fa := { s.fa with phase := .args op (bytes ++ [b]) } }
        else completeCommand op (bytes ++ [b]) s
      | .data left => dataByte left b s)

/-- Bytes written to `fport_data` one after another. -/
def feed : List Byte → State → Result
  | [], s => whenAlive s (.next s)
  | b :: bs, s =>
    match feedByte b s with
    | .next t => feed bs t
    | .fault r => .fault r
    | .refused r => .refused r

/-! ## The other port accesses (R360) -/

/-- A read of `fport_data` takes the next result byte, or 0x00 if there is none (R363). -/
def portRead (s : State) : Result :=
  whenAlive s
    (match s.fa.out with
      | [] => .next { s with fdata := 0x00 }
      | b :: rest => .next { s with fdata := b, fa := { s.fa with out := rest } })

/-- A read of `fport_status`. -/
def statusRead (s : State) : Result := whenAlive s (.next { s with fstatus := facadeStatus s.fa.out })

/-- A write of `fport_status` is ignored. -/
def statusWrite (s : State) : Result := whenAlive s (.next s)

end Sys2Proof.Machine
end

