-- ==== Sys2Proof/Machine/Dispatch.lean ====
section
/-! DEFINITION. One arm per instruction, each one direct call of its meaning. -/

namespace Sys2Proof.Machine

open Sys2Proof

def exec (i : Instr) (s : State) : Host.Outcome State Fault Refusal :=
  match i with
  | .rd addr => Sys2Proof.Machine.execRd addr s
  | .wr addr data => Sys2Proof.Machine.execWr addr data s
  | .wrCMr data => Sys2Proof.Machine.execWrCMr data s
  | .wrCIr _ => Sys2Proof.Machine.execWrCIr s
  | .wrSnCr n code => Sys2Proof.Machine.execWrSnCr n code s
  | .wrSnIr n mask => Sys2Proof.Machine.execWrSnIr n mask s
  | .wrSnSr n _ => Sys2Proof.Machine.execWrSnSr n s
  | .wrSnTxWrLo n data => Sys2Proof.Machine.execWrSnTxWrLo n data s
  | .wrSnRxRdLo n data => Sys2Proof.Machine.execWrSnRxRdLo n data s
  | .scmdNone n => Sys2Proof.Machine.execScmdNone n s
  | .scmdOpen n => Sys2Proof.Machine.execScmdOpen n s
  | .scmdListen n => Sys2Proof.Machine.execScmdListen n s
  | .scmdConnect n => Sys2Proof.Machine.execScmdConnect n s
  | .scmdDiscon n => Sys2Proof.Machine.execScmdDiscon n s
  | .scmdClose n => Sys2Proof.Machine.execScmdClose n s
  | .scmdSend n => Sys2Proof.Machine.execScmdSend n s
  | .scmdSendMac n => Sys2Proof.Machine.execScmdSendMac n s
  | .scmdSendKeep n => Sys2Proof.Machine.execScmdSendKeep n s
  | .scmdRecv n => Sys2Proof.Machine.execScmdRecv n s
  | .scmdUnrecognised n code => Sys2Proof.Machine.execScmdUnrecognised n code s
  | .smodeTcp n _ => Sys2Proof.Machine.execSmodeTcp n s
  | .smodeUdp n _ => Sys2Proof.Machine.execSmodeUdp n s
  | .smodeIpraw n _ => Sys2Proof.Machine.execSmodeIpraw n s
  | .smodeMacraw n _ => Sys2Proof.Machine.execSmodeMacraw n s
  | .smodePppoe n _ => Sys2Proof.Machine.execSmodePppoe n s
  | .smodeOther n _ _ => Sys2Proof.Machine.execSmodeOther n s
  | .ctlUdpbindDone n answer => Sys2Proof.Machine.execCtlUdpbindDone n answer s
  | .ctlListenDone n answer draw => Sys2Proof.Machine.execCtlListenDone n answer draw s
  | .ctlConnectDone n answer => Sys2Proof.Machine.execCtlConnectDone n answer s
  | .ctlSendDone n ok keep => Sys2Proof.Machine.execCtlSendDone n ok keep s
  | .ctlCloseDone n => Sys2Proof.Machine.execCtlCloseDone n s
  | .rxTcp n avail k => Sys2Proof.Machine.execRxTcp n avail k s
  | .rxUdp n ip port payload => Sys2Proof.Machine.execRxUdp n ip port payload s
  | .rxEof n => Sys2Proof.Machine.execRxEof n s
  | .rxError n keep => Sys2Proof.Machine.execRxError n keep s
  | .rxDhcpDeliver n => Sys2Proof.Machine.execRxDhcpDeliver n s
  | .rxIpraw n => Sys2Proof.Machine.execRxIpraw n s
  | .probeDone p reachable => Sys2Proof.Machine.execProbeDone p reachable s
  | .pingExpire p => Sys2Proof.Machine.execPingExpire p s
  | .dhcpExpire => Sys2Proof.Machine.execDhcpExpire s
  | .dhcpDiscover n f => Sys2Proof.Machine.execDhcpDiscover n f s
  | .dhcpRequest n f => Sys2Proof.Machine.execDhcpRequest n f s
  | .dhcpOther n _ => Sys2Proof.Machine.execDhcpOther n s
  | .dhcpInvalid n _ => Sys2Proof.Machine.execDhcpInvalid n s
  | .icmpEchoRequest n payload => Sys2Proof.Machine.execIcmpEchoRequest n payload s
  | .icmpOther n _ _ => Sys2Proof.Machine.execIcmpOther n s
  | .fWrbytes data => Sys2Proof.Machine.execFWrbytes data s
  | .fRdbytes count => Sys2Proof.Machine.execFRdbytes count s
  | .fSetaddr addr => Sys2Proof.Machine.execFSetaddr addr s
  | .fGetaddr => Sys2Proof.Machine.execFGetaddr s
  | .fRdtimer => Sys2Proof.Machine.execFRdtimer s
  | .fWrip slot ip => Sys2Proof.Machine.execFWrip slot ip s
  | .fRdip slot => Sys2Proof.Machine.execFRdip slot s
  | .fPortno => Sys2Proof.Machine.execFPortno s
  | .fSwver => Sys2Proof.Machine.execFSwver s
  | .fHwver => Sys2Proof.Machine.execFHwver s
  | .fLink => Sys2Proof.Machine.execFLink s
  | .fId => Sys2Proof.Machine.execFId s
  | .fErrcnt => Sys2Proof.Machine.execFErrcnt s
  | .fUnknown _ => Sys2Proof.Machine.execFUnknown s
  | .lifeSoft => Sys2Proof.Machine.execLifeSoft s
  | .lifeColdOn => Sys2Proof.Machine.execLifeColdOn s
  | .lifePowerOff => Sys2Proof.Machine.execLifePowerOff s
  | .lifeDestroy => Sys2Proof.Machine.execLifeDestroy s

end Sys2Proof.Machine
end

