-- ==== Sys2Proof/Machine/Fetch.lean ====
section
/-! DEFINITION. What the block does with the next thing that reaches it: a unit is decoded and its instruction executed, an access to a facade port or a change of an input line has its own effect. -/

namespace Sys2Proof.Machine

open Sys2Proof

/-- One stimulus (logs 1 and 2). A unit runs the instruction it decodes to; bytes for the facade's data port go
through its parser, which runs each command as its last byte arrives. -/
def accept (i : Stimulus) (s : State) : Result :=
  match i with
  | .op (.bus r) => exec (decodeBus s.cfg.map r) s
  | .op (.scmd n c) => exec (decodeScmd s.cfg.codes n c) s
  | .op (.smode n m) => exec (decodeSmode s.cfg.codes n m) s
  | .op (.dhcpin n data) => exec (decodeDhcp n data) s
  | .op (.icmpin n proto payload) => exec (decodeIcmp n proto payload) s
  | .op (.fcmd bytes) => feed bytes s
  | .op (.event e) => exec (decodeEvent e) s
  | .op (.life r) => exec (decodeLife r) s
  | .portRead => portRead s
  | .statusRead => statusRead s
  | .statusWrite _ => statusWrite s
  | .tick ms => .next { s with now := s.now + ms }
  | .seedLine seed => .next { s with seedIn := seed }
  | .linkLine b => .next { s with linkIn := b }
  | .portLine p => .next { s with portIn := p }

/-- Put a unit where the next step finds it: at the head of the schedule, and for a facade command with the
parser idle. -/
def State.present (s : State) (p : Packet) : State :=
  let t := { s with inputs := .op p :: s.inputs }
  match p with
  | .fcmd _ => { t with fa := { t.fa with phase := .idle } }
  | _ => t

end Sys2Proof.Machine
end

