-- ==== Sys2Proof/Machine/Step.lean ====
section
/-! DEFINITION. One step of the block: the next stimulus of the schedule, or nothing if none is there. -/

namespace Sys2Proof.Machine

open Sys2Proof

/-- One atomic step (20_memory.md R86). With nothing scheduled "the block does nothing until a bus transaction
or a port access arrives" (70_reset_and_hazards.md R447). -/
def step (s : State) : Host.Outcome State Fault Refusal :=
  match s.inputs with
  | [] => .next s
  | i :: rest => accept i { s with inputs := rest }

/-- The state whose next step runs the instruction with the bits `w`, a table row of `nbits` bits in whole
bytes (assumption log 2). -/
def State.withFetchWord (s : State) (nbits w : Nat) : State :=
  match tablePacket s.cfg nbits w with
  | some p => s.present p
  | none => s

end Sys2Proof.Machine
end

