-- ==== Sys2Proof/WellFormed.lean ====
section
/-! DEFINITION. Which terms of `Instr` are instructions the spec has: the constraints the types do not carry. And which configurations are one of the block at all. -/

namespace Sys2Proof

open Config

/-- No other BUS row selects this address: the generic `WR` row keeps it (40_register_access.md R152). -/
def genericAddr (m : AddressMap) (addr : Half) : Bool :=
  match locate m (busAddr m addr) with
  | .cMr => false
  | .cIr => false
  | .sCr _ => false
  | .sIr _ => false
  | .sDev _ .sr => false
  | .txWrLo _ => false
  | .rxRdLo _ => false
  | _ => true

/-- Not one of the ten codes of 30_encoding.md R112: one of the 246 of R113. -/
def unrecognisedCode (k : Codes) (c : Byte) : Bool := !k.commands.contains c

/-- Not one of the five named protocol nibbles (30_encoding.md R116). -/
def otherNibble (k : Codes) (p : BitVec 4) : Bool := !k.protocols.contains p

/-- `chaddr` is 16 bytes (30_encoding.md R123). -/
def wellFormedFrame (f : DhcpFrame) : Bool := f.chaddr.length == 16

/-- The well-formed instructions of a block with configuration `c`. -/
def Instr.wf (c : Params) : Instr → Bool
  | .rd _ => true
  | .wr addr _ => genericAddr c.map addr
  | .wrCMr _ => true
  | .wrCIr _ => true
  | .wrSnCr _ _ => true
  | .wrSnIr _ _ => true
  | .wrSnSr _ _ => true
  | .wrSnTxWrLo _ _ => true
  | .wrSnRxRdLo _ _ => true
  | .scmdNone _ => true
  | .scmdOpen _ => true
  | .scmdListen _ => true
  | .scmdConnect _ => true
  | .scmdDiscon _ => true
  | .scmdClose _ => true
  | .scmdSend _ => true
  | .scmdSendMac _ => true
  | .scmdSendKeep _ => true
  | .scmdRecv _ => true
  | .scmdUnrecognised _ code => unrecognisedCode c.codes code
  | .smodeTcp _ _ => true
  | .smodeUdp _ _ => true
  | .smodeIpraw _ _ => true
  | .smodeMacraw _ _ => true
  | .smodePppoe _ _ => true
  | .smodeOther _ _ p => otherNibble c.codes p
  | .ctlUdpbindDone _ _ => true
  | .ctlListenDone _ _ _ => true
  | .ctlConnectDone _ _ => true
  | .ctlSendDone _ _ _ => true
  | .ctlCloseDone _ => true
  | .rxTcp _ avail k => decide (1 ≤ k) && decide (k ≤ avail.length)
  | .rxUdp _ _ _ _ => true
  | .rxEof _ => true
  | .rxError _ _ => true
  | .rxDhcpDeliver _ => true
  | .rxIpraw _ => true
  | .probeDone _ _ => true
  | .pingExpire _ => true
  | .dhcpExpire => true
  | .dhcpDiscover _ f => wellFormedFrame f && f.msgtype == Config.dhcpDiscover
  | .dhcpRequest _ f => wellFormedFrame f && f.msgtype == Config.dhcpRequest
  | .dhcpOther _ f =>
    wellFormedFrame f && f.msgtype != Config.dhcpDiscover && f.msgtype != Config.dhcpRequest
  | .dhcpInvalid _ data => (parseDhcp data).isNone
  | .icmpEchoRequest _ payload => isEchoRequest protoIcmp payload
  | .icmpOther _ proto payload => !isEchoRequest proto payload
  | .fWrbytes data => decide (data.length < 65536)
  | .fRdbytes _ => true
  | .fSetaddr _ => true
  | .fGetaddr => true
  | .fRdtimer => true
  | .fWrip _ _ => true
  | .fRdip _ => true
  | .fPortno => true
  | .fSwver => true
  | .fHwver => true
  | .fLink => true
  | .fId => true
  | .fErrcnt => true
  | .fUnknown opcode => !c.ops.all.contains opcode
  | .lifeSoft => true
  | .lifeColdOn => true
  | .lifePowerOff => true
  | .lifeDestroy => true

/-! ## Configurations (00_scope.md R6, log 17) -/

/-- No two of these runs (first address, length) share a byte. -/
def apart : List (Nat × Nat) → Bool
  | [] => true
  | x :: rest => rest.all (fun y => decide (x.1 + x.2 ≤ y.1) || decide (y.1 + y.2 ≤ x.1)) && apart rest

/-- No run reaches beyond `stop`. -/
def endsBy (stop : Nat) (runs : List (Nat × Nat)) : Bool := runs.all (fun x => decide (x.1 + x.2 ≤ stop))

/-- The common registers, the socket blocks and the banks share no byte of the window, nor do the registers of a
socket block, and the bus reaches all of them (10_state.md R21, R22, R40, 20_memory.md R81). -/
def Config.AddressMap.wf (m : AddressMap) : Bool :=
  let regions := [(m.cMr, 1), (m.cGar, 4), (m.cSubr, 4), (m.cShar, 6), (m.cSipr, 4), (m.cIr, 1), (m.cRtr, 2),
    (m.cRcr, 1), (m.cRmsr, 1), (m.cTmsr, 1), (m.cPtimer, 1)]
    ++ (List.range 4).map (fun n => (m.sockBase + n * m.sockStride, m.sockStride))
    ++ [(m.txBankBase, m.bankSize), (m.rxBankBase, m.bankSize)]
  let regs := [(m.oMr, 1), (m.oCr, 1), (m.oIr, 1), (m.oSr, 1), (m.oPort, 2), (m.oDhar, 6), (m.oDipr, 4),
    (m.oDport, 2), (m.oProto, 1), (m.oTtl, 1), (m.oTxFsr, 2), (m.oTxRd, 2), (m.oTxWr, 2), (m.oRxRsr, 2),
    (m.oRxRd, 2), (m.oRxWr, 2)]
  apart regions && endsBy winSize regions && apart regs && endsBy m.sockStride regs && decide (16 ≤ m.addrW)

/-- The codes of one kind differ, and an interrupt mask is a single bit. -/
def Config.Codes.wf (k : Codes) : Bool :=
  let ints := [k.intCon, k.intDiscon, k.intRecv, k.intTimeout, k.intSendOk]
  decide k.commands.Nodup
    && decide [k.srClosed, k.srInit, k.srListen, k.srEstablished, k.srClosing, k.srCloseWait, k.srUdp, k.srIpraw,
      k.srMacraw, k.srPppoe].Nodup
    && decide ints.Nodup && ints.all (fun b => b != 0 && b &&& (b - 1) == 0)
    && decide k.protocols.Nodup

/-- A configuration of the block: nothing shares a byte or a code, and a fabricated frame has room for its options
(30_encoding.md R124). -/
def Config.Params.wf (c : Params) : Bool :=
  c.map.wf && c.codes.wf && decide c.ops.all.Nodup && decide (274 ≤ c.dhcpFrameLen)

end Sys2Proof
end

