-- ==== Sys2Proof/Safety.lean ====
section
/-! DEFINITION. The terms claims are made in: the invariant of the block (10_state.md R61 and what it rests on), what a command, an engine step, a receive and a reset leave, the bits and the status moves the spec allows, and a sequence of bus writes. -/

namespace Sys2Proof.Machine

open Sys2Proof

/-! ## The invariant -/

/-- Which operation may be in flight in which status (42_socket_commands.md R202 to R214, R252). -/
def opFits : CtlOp → Status → Bool
  | .none, x => x != .closing && x != .closeWait
  | .udpBind, x => x == .udp
  | .listen, x => x == .listen
  | .connect _, x => x == .init
  | .send, x => transfers x
  | .close _, x => x == .closing || x == .closeWait

/-- 10_state.md R61 (c): a connection handle exists only in these statuses. -/
def connFits (x : Status) : Bool := x == .established || x == .closeWait || x == .udp || x == .closing

/-- R61 (c): a listening handle exists only in these statuses (90_conflicts.md C7). -/
def lsnFits (x : Status) : Bool :=
  x == .listen || x == .established || x == .closeWait || x == .closing

/-- R61 (c), (d), the fit of `op` and status, and the undefined bits of `S[n].IR` (R43), `mask` being the defined
ones. -/
def sockFits (mask : Byte) (k : Sock) : Bool :=
  (k.conn.isNone || connFits k.status) && (k.lsn.isNone || lsnFits k.status)
    && (!k.recvEnabled || transfers k.status) && opFits k.op k.status && k.ir &&& ~~~mask == 0

/-- R61 (e): `op != none` exactly when `S[n].CR != 0`. -/
def State.commandFits (s : State) (n : SockId) : Bool := ((s.sock n).op != .none) == (s.sCr n != 0)

/-- An address with a cell of its own: inside the window and neither an interrupt nor a device-owned register. -/
def storedAddr (m : Config.AddressMap) (a : Nat) : Bool :=
  match locate m a with
  | .outside => false
  | .cIr => false
  | .sIr _ => false
  | .sDev _ _ => false
  | _ => true

/-- The handles in use (44_network_port.md R281). -/
def State.liveHandles (s : State) : List Handle :=
  (List.finRange 4).flatMap (fun n => (s.sock n).conn.toList ++ (s.sock n).lsn.toList)

/-- An exchange's frame is `DHCP_FRAME_LEN` bytes and its hardware address 16 (10_state.md R62). -/
def exchangeFits (frameLen : Nat) (x : DhcpExchange) : Bool := x.buf.length == frameLen && x.chaddr.length == 16

/-- A ping holds an echo request, and its outcome is not `unreachable`, which removes it (46_icmp_echo.md R341,
R344). -/
def pingFits (g : Ping) : Bool := isEchoRequest Config.protoIcmp g.payload && g.outcome != .unreachable

/-- The parser is inside a command only as far as the command reaches (47_firmware_facade.md R361). -/
def phaseFits (o : Config.Opcodes) : FaPhase → Bool
  | .idle => true
  | .args op bytes => decide (bytes.length < argCount o op)
  | .data left => decide (0 < left) && decide (left < 65536)

/-- The invariant of the block in the layout the tables of the spec list. -/
structure State.Inv (s : State) : Prop where
  /-- The defaults of 00_scope.md R6 for addresses and codes. -/
  config : s.cfg.Tabled
  /-- The window's storage is in canonical form. -/
  memWf : Memory.wf s.mem = true
  /-- Only addresses with a cell of their own are listed. -/
  memStored : ∀ c ∈ s.mem, storedAddr s.cfg.map c.1 = true
  /-- `C.MR` bit 7 always reads 0 (10_state.md R23). -/
  resetBit : (s.load s.cfg.map.cMr).getLsbD 7 = false
  /-- R61 (c), (d) and R43. -/
  socks : ∀ n, sockFits s.cfg.codes.intMask (s.sock n) = true
  /-- R61 (e). -/
  commands : ∀ n, s.commandFits n = true
  /-- Live handles are pairwise different and all of them have been handed out (R281). -/
  handles : s.liveHandles.Nodup ∧ ∀ h ∈ s.liveHandles, h < s.nextHandle
  /-- R62. -/
  dhcp : ∀ x, s.dhcp = some x → exchangeFits s.cfg.dhcpFrameLen x = true
  /-- R63. -/
  pings : ∀ g ∈ s.pings, pingFits g = true
  /-- R64: sets of port numbers, 0 never reserved (R371). -/
  ports : s.prov.Nodup ∧ s.released.Nodup ∧ (0 : Half) ∉ s.prov
  /-- R361. -/
  facade : phaseFits s.cfg.ops s.fa.phase = true ∧ s.fa.t0 ≤ s.now

/-- 10_state.md R61 (f): no receive ring holds more than it has room for. -/
def State.rxBounded (s : State) : Prop := ∀ n, s.rxUsed n ≤ s.rxSize n

/-- A run that the spec gives a meaning: it ends in a next state. -/
def Completes (r : Result) : Prop := ∃ t, r = .next t

/-! ## Addresses as the tables of 10_state.md list them -/

/-- The address of offset `off` of socket block n, in the default layout (R21). -/
def blockAddr (n : SockId) (off : Nat) : Nat := 0x0400 + 0x0100 * n.val + off

/-- The offsets of the device-owned bytes of a socket block (R40, access `DEV`). -/
def devOffsets : List Nat := [0x03, 0x20, 0x21, 0x22, 0x23, 0x26, 0x27, 0x2A, 0x2B]

/-- The offsets of a socket block where a write does something else than store (R40): command, interrupt,
the two commit points, and the device-owned bytes. -/
def hookOffsets : List Nat := [0x01, 0x02, 0x25, 0x29] ++ devOffsets

/-- Plain storage (R20 to R22, R40): inside the window, and none of the addresses a rule singles out. -/
def PlainAddr (a : Nat) : Prop :=
  a < 0x8000 ∧ a ≠ 0x0000 ∧ a ≠ 0x0015 ∧ ∀ n : SockId, ∀ off ∈ hookOffsets, a ≠ blockAddr n off

/-! ## What an operation leaves -/

/-- A command's synchronous effect: the record of its socket becomes `k`, its command byte `cr`, nothing else
changes. -/
structure CommandEffect (n : SockId) (cr : Byte) (k : Sock) (s t : State) : Prop where
  record : t.sock n = k
  otherRecords : ∀ m, m ≠ n → t.sock m = s.sock m
  command : t.load (sockAddr s.cfg.map n s.cfg.map.oCr) = cr
  bytes : ∀ a, a ≠ sockAddr s.cfg.map n s.cfg.map.oCr → t.load a = s.load a
  rest : t = { s with mem := t.mem, socks := t.socks }

/-- OPEN's effect (42_socket_commands.md R201, R202): as a command's, and the stored bytes of `S[n].TX_WR` and
`S[n].RX_RD` are zero. -/
structure OpenEffect (n : SockId) (cr : Byte) (k : Sock) (s t : State) : Prop where
  record : t.sock n = k
  otherRecords : ∀ m, m ≠ n → t.sock m = s.sock m
  command : t.load (blockAddr n 0x01) = cr
  cursors : ∀ off ∈ [0x24, 0x25, 0x28, 0x29], t.load (blockAddr n off) = 0
  bytes : ∀ a, (∀ off ∈ [0x01, 0x24, 0x25, 0x28, 0x29], a ≠ blockAddr n off) → t.load a = s.load a
  rest : t = { s with mem := t.mem, socks := t.socks }

/-- The record of a socket whose cursors OPEN has initialised. -/
def Sock.opened (k : Sock) (x : Status) (recv : Bool) (o : CtlOp) : Sock :=
  { k with status := x, txRd := 0, txWr := 0, rxRd := 0, rxWr := 0, recvEnabled := recv, op := o }

/-- What OPEN leaves for the protocol nibble `p` (42_socket_commands.md R202): its guard, then one
of the four arms; everything else is ignored with the command byte cleared. -/
def OpenLeaves (n : SockId) (p : BitVec 4) (s t : State) : Prop :=
  if (s.sock n).status = .closed ∧ 0 < s.txSize n ∧ 0 < s.rxSize n ∧ (p = 1 ∨ p = 2 ∨ p = 3) then
    (p = 1 → OpenEffect n 0x00 ((s.sock n).opened .init false .none) s t)
      ∧ (p = 2 → OpenEffect n 0x01 ((s.sock n).opened .udp false .udpBind) s t)
      ∧ (p = 3 → OpenEffect n 0x00 ((s.sock n).opened .ipraw true .none) s t)
  else CommandEffect n 0x00 (s.sock n) s t

/-- A completion's effect: the record of its socket becomes `k`, its command byte 0, the requests `reqs` are
made, `handles` tokens are handed out, `notice` pulses `pulses` times, `frees` free values are used, nothing else
changes. -/
structure EngineEffect (n : SockId) (k : Sock) (reqs : List NetReq) (handles pulses frees : Nat) (s t : State) :
    Prop where
  record : t.sock n = k
  otherRecords : ∀ m, m ≠ n → t.sock m = s.sock m
  command : t.load (sockAddr s.cfg.map n s.cfg.map.oCr) = 0
  bytes : ∀ a, a ≠ sockAddr s.cfg.map n s.cfg.map.oCr → t.load a = s.load a
  rest : t = { s with
    mem := t.mem, socks := t.socks, netLog := s.netLog ++ reqs, nextHandle := s.nextHandle + handles
    notices := s.notices + pulses, freeUsed := s.freeUsed + frees }

/-- The address of byte `i` of what a receive stores: cursor `rx_wr + i` of the RX ring (41_ring_buffers.md
R184, R188). -/
def State.rxAddr (s : State) (n : SockId) (i : Nat) : Nat :=
  ringAddr (s.rxBase n) (s.rxSize n) ((s.sock n).rxWr.toNat + i)

/-- `RxCommit`'s effect (43_engines.md R250) with the requests `reqs`: the bytes are in the ring from `rx_wr` on,
`rx_wr` has advanced, receive is off, RECV is raised, nothing else changes. -/
structure RxEffect (n : SockId) (bytes : List Byte) (reqs : List NetReq) (s t : State) : Prop where
  record : t.sock n = { s.sock n with
    rxWr := (s.sock n).rxWr + BitVec.ofNat 16 bytes.length, recvEnabled := false
    ir := (s.sock n).ir ||| s.cfg.codes.intRecv }
  otherRecords : ∀ m, m ≠ n → t.sock m = s.sock m
  stored : ∀ i, (h : i < bytes.length) → t.load (s.rxAddr n i) = bytes[i]
  bytesElsewhere : ∀ a, (∀ i, i < bytes.length → a ≠ s.rxAddr n i) → t.load a = s.load a
  rest : t = { s with mem := t.mem, socks := t.socks, netLog := s.netLog ++ reqs }

/-- The close requests of a reset: every live handle, socket by socket (70_reset_and_hazards.md R441), and none for what
an abandoned operation had reached (log 24). -/
def State.closeRequests (s : State) : List NetReq := s.liveHandles.map NetReq.close

/-- The addresses `SoftReset()` writes in the common block (R441). -/
def commonResetAddrs : List Nat :=
  [0x0000, 0x0001, 0x0002, 0x0003, 0x0004, 0x0005, 0x0006, 0x0007, 0x0008, 0x0009, 0x000A, 0x000B, 0x000C,
   0x000D, 0x000E, 0x000F, 0x0010, 0x0011, 0x0012, 0x0017, 0x0018, 0x0019, 0x001A, 0x001B, 0x0028]

/-- The stored bytes `SoftReset()` writes in a socket block: `CR`, `TX_WR`, `RX_RD` (R441, R201). -/
def sockResetOffsets : List Nat := [0x01, 0x24, 0x25, 0x28, 0x29]

/-- `SoftReset()` (R441), the facade apart: `fa` is what it is in `t`. -/
structure SoftResetEffect (s t : State) : Prop where
  records : ∀ n, t.sock n = Sock.reset
  mode : t.load 0x0000 = 0
  gateway : t.loadQuad 0x0001 = s.seedIn.gateway
  subnet : t.loadQuad 0x0005 = s.seedIn.subnet
  mac : [t.load 0x0009, t.load 0x000A, t.load 0x000B, t.load 0x000C, t.load 0x000D, t.load 0x000E] =
    macBytes s.seedIn.mac
  source : t.loadQuad 0x000F = s.seedIn.ip
  retryTime : t.load16 0x0017 = s.cfg.resetRtr
  retryCount : t.load 0x0019 = s.cfg.resetRcr
  rxSelectors : t.load 0x001A = s.cfg.resetRmsr
  txSelectors : t.load 0x001B = s.cfg.resetTmsr
  pppTimer : t.load 0x0028 = s.cfg.resetPtimer
  sockBytes : ∀ n : SockId, ∀ off ∈ sockResetOffsets, t.load (blockAddr n off) = 0
  kept : ∀ a, a ∉ commonResetAddrs → (∀ n : SockId, ∀ off ∈ sockResetOffsets, a ≠ blockAddr n off) →
    t.load a = s.load a
  rest : t = { s with
    mem := t.mem, socks := t.socks, dhcp := none, pings := [], prov := [], released := [], seed := s.seedIn
    netLog := s.netLog ++ s.closeRequests, fa := t.fa }

/-- The facade reset (47_firmware_facade.md R361, 70_reset_and_hazards.md R444) at time `now`. -/
structure FacadeCleared (fa : Facade) (now : Nat) : Prop where
  addr : fa.addr = 0
  slots : ∀ i : Fin 8, fa.ip[i] = ⟨0, 0, 0, 0⟩
  phase : fa.phase = .idle
  out : fa.out = []
  err : fa.err = 0
  base : fa.t0 = now

/-! ## What the whole machine allows -/

/-- A bus transaction or a port access, as opposed to an engine step, an input of the responder or a lifecycle
request (00_scope.md R8). -/
def isAccess : Instr → Bool
  | .rd _ => true
  | .wr _ _ => true
  | .wrCMr _ => true
  | .wrCIr _ => true
  | .wrSnCr _ _ => true
  | .wrSnIr _ _ => true
  | .wrSnSr _ _ => true
  | .wrSnTxWrLo _ _ => true
  | .wrSnRxRdLo _ _ => true
  | .scmdNone _ => true
  | .scmdOpen _ => true
  | .scmdListen _ => true
  | .scmdConnect _ => true
  | .scmdDiscon _ => true
  | .scmdClose _ => true
  | .scmdSend _ => true
  | .scmdSendMac _ => true
  | .scmdSendKeep _ => true
  | .scmdRecv _ => true
  | .scmdUnrecognised _ _ => true
  | .smodeTcp _ _ => true
  | .smodeUdp _ _ => true
  | .smodeIpraw _ _ => true
  | .smodeMacraw _ _ => true
  | .smodePppoe _ _ => true
  | .smodeOther _ _ _ => true
  | .fWrbytes _ => true
  | .fRdbytes _ => true
  | .fSetaddr _ => true
  | .fGetaddr => true
  | .fRdtimer => true
  | .fWrip _ _ => true
  | .fRdip _ => true
  | .fPortno => true
  | .fSwver => true
  | .fHwver => true
  | .fLink => true
  | .fId => true
  | .fErrcnt => true
  | .fUnknown _ => true
  | _ => false

/-- Does the write of `v` to `S[n].CR` raise bit `b` inside itself (60_exceptions.md R401: SEND_MAC, SEND_KEEP)? -/
def commandRaises (k : Config.Codes) (v : Byte) (b : Nat) : Bool :=
  (v == k.cmdSendMac && k.intSendOk.getLsbD b) || (v == k.cmdSendKeep && k.intTimeout.getLsbD b)

/-- Does F_WRBYTES of `data`, from the facade's address on, put at the window address `a` a byte that `p` holds of
(47_firmware_facade.md R364)? -/
def State.blockWritePuts (s : State) (data : List Byte) (a : Nat) (p : Byte → Bool) : Bool :=
  (List.range data.length).any fun i =>
    busAddr s.cfg.map (s.fa.addr + BitVec.ofNat 16 i) == a && p (data.getD i 0)

/-- The table of 60_exceptions.md R401: may this operation raise bit `b` of `S[n].IR`? A bus write may where it
writes SEND_MAC or SEND_KEEP to the socket's command byte, a facade block write where one of its bytes does. -/
def mayRaise (s : State) (i : Instr) (n : SockId) (b : Nat) : Bool :=
  let k := s.cfg.codes
  let cr := sockAddr s.cfg.map n s.cfg.map.oCr
  match i with
  | .ctlUdpbindDone m _ => m == n && k.intTimeout.getLsbD b
  | .ctlListenDone m _ _ => m == n && (k.intCon.getLsbD b || k.intTimeout.getLsbD b)
  | .ctlConnectDone m _ => m == n && (k.intCon.getLsbD b || k.intTimeout.getLsbD b)
  | .ctlSendDone m _ _ => m == n && (k.intSendOk.getLsbD b || k.intTimeout.getLsbD b)
  | .ctlCloseDone m => m == n && k.intDiscon.getLsbD b
  | .rxTcp m _ _ => m == n && k.intRecv.getLsbD b
  | .rxUdp m _ _ _ => m == n && k.intRecv.getLsbD b
  | .rxDhcpDeliver m => m == n && k.intRecv.getLsbD b
  | .rxIpraw m => m == n && k.intRecv.getLsbD b
  | .rxError m _ => m == n && k.intTimeout.getLsbD b
  | .scmdSendMac m => m == n && k.intSendOk.getLsbD b
  | .scmdSendKeep m => m == n && k.intTimeout.getLsbD b
  | .wrSnCr m v => m == n && commandRaises k v b
  | .wr addr v => busAddr s.cfg.map addr == cr && commandRaises k v b
  | .fWrbytes data => s.blockWritePuts data cr (fun v => commandRaises k v b)
  | _ => false

/-- An operation that closes sockets at once: a reset (70_reset_and_hazards.md R440). A write with bit 7 set to
`C.MR` is one, also from a facade block write. -/
def resets (s : State) : Instr → Bool
  | .lifeSoft => true
  | .lifeColdOn => true
  | .lifePowerOff => true
  | .lifeDestroy => true
  | .wrCMr v => v.getLsbD 7
  | .wr addr v => busAddr s.cfg.map addr == s.cfg.map.cMr && v.getLsbD 7
  | .fWrbytes data => s.blockWritePuts data s.cfg.map.cMr (fun v => v.getLsbD 7)
  | _ => false

/-- The moves of `st[n].status` in the table of 42_socket_commands.md R212. -/
def statusMove : Status → Status → Bool
  | .closed, .init => true
  | .closed, .udp => true
  | .closed, .ipraw => true
  | .init, .listen => true
  | .init, .established => true
  | .listen, .established => true
  | .established, .closeWait => true
  | .closing, .closed => true
  | .closeWait, .closed => true
  | .init, .closing => true
  | .listen, .closing => true
  | .established, .closing => true
  | .udp, .closing => true
  | .ipraw, .closing => true
  | _, _ => false

/-- The moves of that table that a bus write makes by itself, all of them commands (R202, R203, R205, R206): none
of them leads to ESTABLISHED, CLOSE_WAIT or CLOSED. -/
def commandMove : Status → Status → Bool
  | .closed, .init => true
  | .closed, .udp => true
  | .closed, .ipraw => true
  | .init, .listen => true
  | .init, .closing => true
  | .listen, .closing => true
  | .established, .closing => true
  | .udp, .closing => true
  | .ipraw, .closing => true
  | _, _ => false

/-- What one byte of a facade block write may do to a status: a command's move, or, where one of the bytes resets the
block, the move to CLOSED. -/
def ByteMove (reset : Bool) (x y : Status) : Prop := commandMove x y = true ∨ (reset = true ∧ y = .closed)

/-- Bus writes of a byte string at ascending addresses, modulo 65536 (47_firmware_facade.md R364). -/
def busWrites : Half → List Byte → State → Result
  | _, [], s => .next s
  | a, d :: ds, s =>
    match exec (.wr a d) s with
    | .next t => busWrites (a + 1) ds t
    | .fault r => .fault r
    | .refused r => .refused r

/-- No bus write to this address is refused while the block is alive: not a command byte, not the commit point of
`S[n].RX_RD` (70_reset_and_hazards.md R460 H2, H3, H6). -/
def NeverRefused (m : Config.AddressMap) (addr : Half) : Prop :=
  ∀ n : SockId, busAddr m addr ≠ sockAddr m n m.oCr ∧ busAddr m addr ≠ sockAddr m n (m.oRxRd + 1)

end Sys2Proof.Machine
end

