-- ==== Sys2Proof/Certificates/Slice0/Obligations.lean ====
section
/-! DEFINITION. The statements for the provers. Most hold in every configuration: an address is `sockAddr m n m.oX` or
`m.cX` of the configuration's map `m`, a code a field of its codes. Where registers must be told apart the statement is
about the layout the tables of the spec list, `s.cfg.Tabled`, and its addresses are numbers (`blockAddr n off` is offset
`off` of socket block n). The shared vocabulary is in Sys2Proof/Safety.lean. -/

open Sys2Proof Sys2Proof.Machine

/-! ## The window: reads and views -/

/-- 20_memory.md R81, 40_register_access.md R151: inside the window a read puts the visible byte on `rdata` and
changes nothing else (R88); outside it reads 0x00 and a write does nothing at all. The address is what `ADDR_W` bits
carry: all 16 by default; that a narrower bus carries the low ones is the model's choice (log 17). -/
def Obligations.ReadsAnswerAndOutsideIsInert : Prop :=
  ∀ (addr : Half) (s : State), s.alive = true →
    let a := busAddr s.cfg.map addr
    (a < 0x8000 → exec (.rd addr) s = .next { s with rdata := s.peek a })
    ∧ (0x8000 ≤ a →
        exec (.rd addr) s = .next { s with rdata := 0x00 } ∧ ∀ d, exec (.wr addr d) s = .next s)

/-- 10_state.md R45 with R44, R46 and R61 (a), (b): what the device-owned registers of a socket show in every
state. -/
def Obligations.DeviceRegistersShowHiddenState : Prop :=
  ∀ (s : State) (n : SockId), s.cfg.Tabled →
    (s.peek16 (blockAddr n 0x20)).toNat =
        s.txSize n - ((s.sock n).txWr - (s.sock n).txRd).toNat
    ∧ s.peek16 (blockAddr n 0x26) = (s.sock n).rxWr - (s.sock n).rxRd
    ∧ s.peek16 (blockAddr n 0x22) = (s.sock n).txRd
    ∧ s.peek16 (blockAddr n 0x2A) = (s.sock n).rxWr
    ∧ s.peek (blockAddr n 0x02) = (s.sock n).ir
    ∧ ∀ e ∈ [(Status.closed, (0x00 : Byte)), (.init, 0x13), (.listen, 0x14), (.established, 0x17),
        (.closing, 0x1A), (.closeWait, 0x1C), (.udp, 0x22), (.ipraw, 0x32)],
        (s.sock n).status = e.1 → s.peek (blockAddr n 0x03) = e.2

/-- 10_state.md R24: `C.IR` is one summary bit per socket at every instant, a write to it is ignored; the
interrupt outputs are levels of the same registers (60_exceptions.md R403, R404). -/
def Obligations.CommonInterruptSummarises : Prop :=
  ∀ s : State, s.cfg.Tabled →
    (∀ n : SockId, (s.peek 0x0015).getLsbD n.val = decide (s.peek (blockAddr n 0x02) ≠ 0))
    ∧ (∀ i, 4 ≤ i → (s.peek 0x0015).getLsbD i = false)
    ∧ (∀ n : SockId, s.sockIrq n = decide (s.peek (blockAddr n 0x02) ≠ 0))
    ∧ s.irq = decide (∃ n : SockId, s.peek (blockAddr n 0x02) ≠ 0)
    ∧ (s.alive = true → ∀ d, exec (.wrCIr d) s = .next s)

/-- 41_ring_buffers.md R181 with R182: the bases from the requested sizes of the lower sockets, the effective
sizes; each ring lies inside its bank, a size is 0 or one of the four, and rings of two sockets share no address. In
every address map. -/
def Obligations.RingsArePackedInsideTheirBanks : Prop :=
  ∀ (s : State) (n : SockId),
    let m := s.cfg.map
    let req (sel : Byte) (k : Nat) : Nat := 1024 * 2 ^ (sel.toNat / 4 ^ k % 4)
    let off (sel : Byte) : Nat := ((List.range n.val).map (req sel)).sum
    let tx := s.load m.cTmsr
    let rx := s.load m.cRmsr
    s.txBase n = m.txBankBase + off tx ∧ s.rxBase n = m.rxBankBase + off rx
    ∧ s.txSize n = (if off tx + req tx n.val ≤ m.bankSize then req tx n.val else 0)
    ∧ s.rxSize n = (if off rx + req rx n.val ≤ m.bankSize then req rx n.val else 0)
    ∧ s.txSize n ∈ [0, 1024, 2048, 4096, 8192] ∧ s.rxSize n ∈ [0, 1024, 2048, 4096, 8192]
    ∧ (s.txSize n ≠ 0 → s.txBase n + s.txSize n ≤ m.txBankBase + m.bankSize)
    ∧ (s.rxSize n ≠ 0 → s.rxBase n + s.rxSize n ≤ m.rxBankBase + m.bankSize)
    ∧ ∀ l : SockId, l < n →
        (s.txSize l ≠ 0 → s.txBase l + s.txSize l ≤ s.txBase n)
        ∧ (s.rxSize l ≠ 0 → s.rxBase l + s.rxSize l ≤ s.rxBase n)

/-! ## Bus writes -/

/-- 40_register_access.md R152, last arm: plain storage, one byte stored and nothing else. -/
def Obligations.PlainWriteStoresOneByte : Prop :=
  ∀ (addr : Half) (d : Byte) (s : State), s.alive = true → s.cfg.Tabled → PlainAddr addr.toNat →
    ∃ t, exec (.wr addr d) s = .next t
      ∧ t.load addr.toNat = d ∧ t.peek addr.toNat = d
      ∧ (∀ a, a ≠ addr.toNat → t.load a = s.load a)
      ∧ t = { s with mem := t.mem }

/-- 40_register_access.md R156: a write to a device-owned register is ignored, under the generic row and under
the rows of its own. -/
def Obligations.DeviceOwnedWritesAreIgnored : Prop :=
  ∀ (d : Byte) (s : State), s.alive = true → s.cfg.Tabled →
    exec (.wrCIr d) s = .next s ∧ exec (.wr 0x0015 d) s = .next s
    ∧ ∀ n : SockId, exec (.wrSnSr n d) s = .next s
        ∧ ∀ off ∈ devOffsets, exec (.wr (BitVec.ofNat 16 (blockAddr n off)) d) s = .next s

/-- 40_register_access.md R152: a write transaction under the generic row does what the row its address selects
does. -/
def Obligations.GenericWriteAgreesWithItsRow : Prop :=
  ∀ (addr : Half) (d : Byte) (s : State),
    exec (.wr addr d) s = exec (decodeBus s.cfg.map (encodeBus true addr d)) s

/-- 40_register_access.md R153: bit 7 of a write to `C.MR` starts the soft reset, any other byte is stored. That an
operation this abandons records no request and no close of what the network side had done for it is the model's choice
(log 24). -/
def Obligations.ModeRegisterStoresOrResets : Prop :=
  ∀ (v : Byte) (s : State), s.alive = true → s.cfg.Tabled →
    ∃ t, exec (.wrCMr v) s = .next t
      ∧ if v.getLsbD 7 = true then SoftResetEffect s t ∧ t.fa = s.fa
        else t.load 0x0000 = v ∧ (∀ a, a ≠ 0x0000 → t.load a = s.load a) ∧ t = { s with mem := t.mem }

/-- 40_register_access.md R154: the two commit points, the high bytes that only store, and the refusal of hazard
H6. -/
def Obligations.LowByteCommitsTheCursor : Prop :=
  ∀ (n : SockId) (v : Byte) (s : State), s.alive = true → s.cfg.Tabled →
    (∃ t, exec (.wrSnTxWrLo n v) s = .next t
      ∧ t.sock n = { s.sock n with txWr := half (s.load (blockAddr n 0x24)) v }
      ∧ (∀ m, m ≠ n → t.sock m = s.sock m)
      ∧ t.load (blockAddr n 0x25) = v ∧ (∀ a, a ≠ blockAddr n 0x25 → t.load a = s.load a)
      ∧ (t.peek16 (blockAddr n 0x20)).toNat =
          s.txSize n - (half (s.load (blockAddr n 0x24)) v - (s.sock n).txRd).toNat
      ∧ t = { s with mem := t.mem, socks := t.socks })
    ∧ (let p := half (s.load (blockAddr n 0x28)) v
       if (s.peek16 (blockAddr n 0x26)).toNat < (p - (s.sock n).rxRd).toNat then
         exec (.wrSnRxRdLo n v) s = .refused .rxReadPastWrite
       else
         ∃ t, exec (.wrSnRxRdLo n v) s = .next t
           ∧ t.sock n = { s.sock n with rxRd := p }
           ∧ (∀ m, m ≠ n → t.sock m = s.sock m)
           ∧ t.load (blockAddr n 0x29) = v ∧ (∀ a, a ≠ blockAddr n 0x29 → t.load a = s.load a)
           ∧ t.peek16 (blockAddr n 0x26) = (s.sock n).rxWr - p
           ∧ t = { s with mem := t.mem, socks := t.socks })
    ∧ ∀ off ∈ [0x24, 0x28],
        ∃ t, exec (.wr (BitVec.ofNat 16 (blockAddr n off)) v) s = .next t
          ∧ t.load (blockAddr n off) = v ∧ (∀ a, a ≠ blockAddr n off → t.load a = s.load a)
          ∧ t = { s with mem := t.mem }

/-- 40_register_access.md R155, the block's "trap return" (60_exceptions.md R405): the bits written as 1 are
cleared and the derived outputs follow. -/
def Obligations.AcknowledgeClearsWrittenBits : Prop :=
  ∀ (n : SockId) (v : Byte) (s : State), s.alive = true → s.cfg.Tabled →
    ∃ t, exec (.wrSnIr n v) s = .next t
      ∧ t.sock n = { s.sock n with ir := (s.sock n).ir &&& ~~~v &&& 0x1F }
      ∧ (∀ m, m ≠ n → t.sock m = s.sock m)
      ∧ t.peek (blockAddr n 0x02) = s.peek (blockAddr n 0x02) &&& ~~~v &&& 0x1F
      ∧ (t.peek 0x0015).getLsbD n.val = decide ((s.sock n).ir &&& ~~~v &&& 0x1F ≠ 0)
      ∧ t.sockIrq n = decide ((s.sock n).ir &&& ~~~v &&& 0x1F ≠ 0)
      ∧ t.irq = decide (t.peek 0x0015 ≠ 0)
      ∧ (∀ a, t.load a = s.load a) ∧ t = { s with socks := t.socks }

/-! ## Lifecycle -/

/-- 70_reset_and_hazards.md R441: the soft request runs `SoftReset()`, and the facade is reset with it (R444). That an
operation this abandons (R446) records no request and no close of what the network side had done for it is the model's
choice (log 24). -/
def Obligations.SoftRequestResets : Prop :=
  ∀ s : State, s.alive = true → s.cfg.Tabled →
    ∃ t, exec .lifeSoft s = .next t ∧ SoftResetEffect s t ∧ FacadeCleared t.fa s.now

/-- 70_reset_and_hazards.md R442: the cold reset zeroes the window, soft-resets and resets the facade. The model's
choices: an abandoned operation (R446) records no request and no close of what the network side had done for it
(log 24), and cells beyond the window are emptied too (log 17). -/
def Obligations.ColdRequestZeroesTheWindow : Prop :=
  ∀ s : State, s.alive = true → s.cfg.Tabled →
    ∃ t, exec .lifeColdOn s = .next t
      ∧ SoftResetEffect { s with mem := [] } t ∧ FacadeCleared t.fa s.now
      ∧ (∀ n : SockId, (t.peek16 (blockAddr n 0x20)).toNat = t.txSize n)
      ∧ ∀ a, a ∉ commonResetAddrs → (∀ n : SockId, a ≠ blockAddr n 0x20 ∧ a ≠ blockAddr n 0x21) → a < 0x8000 →
          t.peek a = 0x00

/-- 70_reset_and_hazards.md R443: power-off zeroes everything without seeding, and the block stays alive. The model's
choices: an abandoned operation (R446) records no request and no close of what the network side had done for it
(log 24), and cells beyond the window are emptied too (log 17). -/
def Obligations.PowerOffZeroesWithoutSeeding : Prop :=
  ∀ s : State, s.alive = true → s.cfg.Tabled →
    ∃ t, exec .lifePowerOff s = .next t
      ∧ (∀ a, t.load a = 0x00) ∧ (∀ n, t.sock n = Sock.reset)
      ∧ (∀ n : SockId, t.txSize n = 1024 ∧ t.rxSize n = 1024 ∧ t.peek16 (blockAddr n 0x20) = 0x0400)
      ∧ FacadeCleared t.fa s.now ∧ t.alive = true
      ∧ t = { s with
          mem := t.mem, socks := t.socks, dhcp := none, pings := [], prov := [], released := []
          netLog := s.netLog ++ s.closeRequests, fa := t.fa }

/-- 70_reset_and_hazards.md R445, the effect of `destroy`: `SoftReset()` without its two seeding lines, then not
alive. That the other register lines remain is the model's reading (log 15); that an abandoned operation (R446) records
no request and no close of what the network side had done for it is its choice (log 24). -/
def Obligations.DestroyStopsTheBlock : Prop :=
  ∀ s : State, s.alive = true → s.cfg.Tabled →
    ∃ t, exec .lifeDestroy s = .next t ∧ t.alive = false
      ∧ (∀ n, t.sock n = Sock.reset)
      ∧ t.load 0x0000 = 0 ∧ t.load16 0x0017 = s.cfg.resetRtr ∧ t.load 0x0019 = s.cfg.resetRcr
      ∧ t.load 0x001A = s.cfg.resetRmsr ∧ t.load 0x001B = s.cfg.resetTmsr ∧ t.load 0x0028 = s.cfg.resetPtimer
      ∧ (∀ n : SockId, ∀ off ∈ sockResetOffsets, t.load (blockAddr n off) = 0)
      ∧ (∀ a, a ∉ [0x0000, 0x0017, 0x0018, 0x0019, 0x001A, 0x001B, 0x0028] →
          (∀ n : SockId, ∀ off ∈ sockResetOffsets, a ≠ blockAddr n off) → t.load a = s.load a)
      ∧ t = { s with
          mem := t.mem, socks := t.socks, dhcp := none, pings := [], prov := [], released := []
          netLog := s.netLog ++ s.closeRequests, alive := false }

/-- 70_reset_and_hazards.md R445, second half: a destroyed block refuses every bus transaction and every access to the
facade's two ports (reads and writes of `fport_data` and of `fport_status`), and nothing else has an effect; no later
request revives it. That an engine step, an input of the responder or a lifecycle request may be presented to it at all,
and then answers the same state, is the model's form (log 7): the spec has no such step. -/
def Obligations.DestroyedIsFinal : Prop :=
  ∀ s : State, s.alive = false →
    (∀ i : Instr, exec i s = if isAccess i = true then .refused .destroyed else .next s)
    ∧ ∀ rest : List Stimulus,
        (∀ bytes, step { s with inputs := .op (.fcmd bytes) :: rest } = .refused .destroyed)
        ∧ step { s with inputs := .portRead :: rest } = .refused .destroyed
        ∧ step { s with inputs := .statusRead :: rest } = .refused .destroyed
        ∧ ∀ b, step { s with inputs := .statusWrite b :: rest } = .refused .destroyed

/-! ## Socket commands -/

/-- 42_socket_commands.md R200: a write to `S[n].CR` runs the command its byte names; it completes over a clear
command byte unless it is a SEND of more than one ring. -/
def Obligations.CommandByteRunsItsCommand : Prop :=
  ∀ (n : SockId) (c : Byte) (s : State), s.alive = true →
    exec (.wrSnCr n c) s = exec (decodeScmd s.cfg.codes n c) s
    ∧ ((s.sock n).op = .none → s.txUsed n ≤ s.txSize n → Completes (exec (.wrSnCr n c) s))

/-- 42_socket_commands.md R200 over an operation in flight: DISCON and CLOSE abandon it, or are absorbed by a
close; NONE does nothing; every other command is refused (hazard H2). That a mode byte may be presented as a unit of
its own, and is refused then as OPEN is, is the model's choice (log 1); so is that an abandoned operation records no
request (log 24). -/
def Obligations.BusyCommandByteAdmitsOnlyCloses : Prop :=
  ∀ (n : SockId) (s : State), s.alive = true → (s.sock n).op ≠ .none →
    exec (.scmdNone n) s = .next s
    ∧ (∀ i ∈ [Instr.scmdOpen n, .scmdListen n, .scmdConnect n, .scmdSend n, .scmdSendMac n, .scmdSendKeep n,
          .scmdRecv n], exec i s = .refused .commandWhileBusy)
    ∧ (∀ c, exec (.scmdUnrecognised n c) s = .refused .commandWhileBusy)
    ∧ (∀ mode : Byte, exec (decodeSmode s.cfg.codes n mode) s = .refused .commandWhileBusy)
    ∧ ∀ i ∈ [Instr.scmdDiscon n, .scmdClose n],
        exec i s = match (s.sock n).op with
          | .close _ => .next s
          | _ => exec i (s.setSock n { s.sock n with op := .none })

/-- 42_socket_commands.md R202: OPEN by the protocol nibble of `S[n].MR`; and the same for a mode byte presented as a
unit of its own (log 1). -/
def Obligations.OpenFollowsTheProtocolNibble : Prop :=
  ∀ (n : SockId) (s : State), s.alive = true → s.cfg.Tabled → (s.sock n).op = .none →
    let mode := s.load (blockAddr n 0x00)
    (∃ t, exec (.scmdOpen n) s = .next t ∧ OpenLeaves n (mode.extractLsb' 0 4) s t)
    ∧ exec (decodeSmode s.cfg.codes n mode) s = exec (.scmdOpen n) s
    ∧ (∀ hi : BitVec 4, ∀ e ∈ [(Instr.smodeTcp n hi, (1 : BitVec 4)), (.smodeUdp n hi, 2), (.smodeIpraw n hi, 3),
          (.smodeMacraw n hi, 4), (.smodePppoe n hi, 5)],
        ∃ t, exec e.1 s = .next t ∧ OpenLeaves n e.2 s t)
    ∧ ∀ hi p : BitVec 4, p ∉ [1, 2, 3, 4, 5] →
        ∃ t, exec (.smodeOther n hi p) s = .next t ∧ OpenLeaves n p s t

/-- 42_socket_commands.md R203 and R204: LISTEN and CONNECT from INIT; from any other status they are ignored. -/
def Obligations.ListenAndConnectStartFromInit : Prop :=
  ∀ (n : SockId) (s : State), s.alive = true → (s.sock n).op = .none →
    (∃ t, exec (.scmdListen n) s = .next t
      ∧ if (s.sock n).status = .init then
          CommandEffect n s.cfg.codes.cmdListen { s.sock n with status := .listen, op := .listen } s t
        else CommandEffect n 0x00 (s.sock n) s t)
    ∧ ∃ t, exec (.scmdConnect n) s = .next t
      ∧ if (s.sock n).status = .init then
          CommandEffect n s.cfg.codes.cmdConnect { s.sock n with
            op := .connect
              ((s.load16 s.cfg.map.cRtr).toNat * (s.load s.cfg.map.cRcr).toNat * s.cfg.rtrUnitUs / 1000) } s t
        else CommandEffect n 0x00 (s.sock n) s t

/-- 42_socket_commands.md R214, R205, R206: DISCON and CLOSE in any state in which no close is in flight, with
or without another operation in flight (R200). That an operation abandoned here records no request is the model's choice
(log 24). -/
def Obligations.CloseCommandsStartAClose : Prop :=
  ∀ (n : SockId) (s : State), s.alive = true → (∀ h, (s.sock n).op ≠ .close h) →
    ∀ e ∈ [(Instr.scmdDiscon n, s.cfg.codes.cmdDiscon), (.scmdClose n, s.cfg.codes.cmdClose)],
      ∃ t, exec e.1 s = .next t
        ∧ if (s.sock n).status = .closed then CommandEffect n 0x00 { s.sock n with op := .none } s t
          else CommandEffect n e.2 { s.sock n with
              recvEnabled := false
              status := if (s.sock n).status = .closeWait then .closeWait else .closing
              op := .close (decide ((s.sock n).conn ≠ none
                ∧ ((s.sock n).status = .established ∨ (s.sock n).status = .closeWait))) } s t

/-- 42_socket_commands.md R207: SEND starts, is ignored by its status guard, or is refused (hazard H3). -/
def Obligations.SendStartsOrIsRefused : Prop :=
  ∀ (n : SockId) (s : State), s.alive = true → (s.sock n).op = .none →
    if (s.sock n).status ∉ [Status.established, .udp, .ipraw] then
      ∃ t, exec (.scmdSend n) s = .next t ∧ CommandEffect n 0x00 (s.sock n) s t
    else if s.txSize n < ((s.sock n).txWr - (s.sock n).txRd).toNat then
      exec (.scmdSend n) s = .refused .sendOverrun
    else
      ∃ t, exec (.scmdSend n) s = .next t ∧ CommandEffect n s.cfg.codes.cmdSend { s.sock n with op := .send } s t

/-- 42_socket_commands.md R208: SEND_MAC drops the bytes between the cursors and raises SEND_OK; in the tabled layout
`S[n].TX_FSR` then shows the whole ring free. -/
def Obligations.SendMacReleasesAndRaises : Prop :=
  ∀ (n : SockId) (s : State), s.alive = true → (s.sock n).op = .none →
    ∃ t, exec (.scmdSendMac n) s = .next t
      ∧ if (s.sock n).status ∈ [Status.udp, .established] then
          CommandEffect n 0x00 { s.sock n with
              txRd := (s.sock n).txWr, ir := (s.sock n).ir ||| s.cfg.codes.intSendOk } s t
            ∧ (s.cfg.Tabled → (t.peek16 (blockAddr n 0x20)).toNat = s.txSize n)
        else CommandEffect n 0x00 (s.sock n) s t

/-- 42_socket_commands.md R209: SEND_KEEP raises TIMEOUT only without a connection handle. -/
def Obligations.SendKeepTimesOutWithoutHandle : Prop :=
  ∀ (n : SockId) (s : State), s.alive = true → (s.sock n).op = .none →
    ∃ t, exec (.scmdSendKeep n) s = .next t
      ∧ if (s.sock n).status ∈ [Status.udp, .established] ∧ (s.sock n).conn = none then
          CommandEffect n 0x00 { s.sock n with ir := (s.sock n).ir ||| s.cfg.codes.intTimeout } s t
        else CommandEffect n 0x00 (s.sock n) s t

/-- 42_socket_commands.md R210: RECV re-arms the receive engine and moves no cursor. -/
def Obligations.RecvArmsReceive : Prop :=
  ∀ (n : SockId) (s : State), s.alive = true → (s.sock n).op = .none →
    ∃ t, exec (.scmdRecv n) s = .next t
      ∧ if (s.sock n).status ∈ [Status.established, .udp, .ipraw] then
          CommandEffect n 0x00 { s.sock n with recvEnabled := true } s t
        else CommandEffect n 0x00 (s.sock n) s t

/-- 42_socket_commands.md R211 and the NONE line of R200: an unrecognised command is cleared without a state
change; NONE stores nothing. -/
def Obligations.UnrecognisedCommandsAreCleared : Prop :=
  ∀ (n : SockId) (c : Byte) (s : State), s.alive = true →
    exec (.scmdNone n) s = .next s
    ∧ ((s.sock n).op = .none →
        ∃ t, exec (.scmdUnrecognised n c) s = .next t ∧ CommandEffect n 0x00 (s.sock n) s t)

/-! ## Control engines -/

/-- 43_engines.md R243: the completion of a UDP bind, for every answer of the network side. That MULTI is read in this
step (R243, 70_reset_and_hazards.md R461), although 10_state.md R41 says `S[n].MR` is read only by OPEN, is the model's
reading: the bind is part of OPEN (log 21). The token a handle gets is the model's choice (log 6), and when a request is
recorded its reading (log 13). -/
def Obligations.BindCompletes : Prop :=
  ∀ (n : SockId) (r : BindAnswer) (s : State), s.alive = true → (s.sock n).op = .udpBind →
    let m := s.cfg.map
    let k := s.sock n
    let multi := (s.load (sockAddr m n m.oMr)).getLsbD 7
    let req := NetReq.openUdp (s.load16 (sockAddr m n m.oPort))
      (if multi = true then some (s.loadQuad (sockAddr m n m.oDipr)) else none) (s.load (sockAddr m n m.oTtl))
    let timedOut := { k with ir := k.ir ||| s.cfg.codes.intTimeout, op := .none }
    ∃ t, exec (.ctlUdpbindDone n r) s = .next t
      ∧ match r with
        | .ok =>
          EngineEffect n { k with conn := some s.nextHandle, recvEnabled := true, op := .none } [req] 1 0 0 s t
        | .fail => EngineEffect n timedOut [req] 0 0 0 s t
        | .failPermission => EngineEffect n timedOut [req] 0 1 0 s t

/-- 43_engines.md R244: the completion of a LISTEN, for every answer and every backlog (log 22). The model's choices:
a kept listening endpoint enters `lsn` only where none is held (log 16), the tokens handles get (log 6); its reading:
when the request is recorded (log 13). -/
def Obligations.ListenCompletes : Prop :=
  ∀ (n : SockId) (r : AcceptAnswer) (draw : ListenDraw) (s : State), s.alive = true →
    (s.sock n).op = .listen →
    let m := s.cfg.map
    let k := s.sock n
    let req := NetReq.listenTcp (s.load16 (sockAddr m n m.oPort)) draw.backlog
    let new := draw.keeps && k.lsn.isNone
    let lsn := if new = true then some s.nextHandle else k.lsn
    let used := if new = true then 1 else 0
    let timedOut := { k with lsn := lsn, ir := k.ir ||| s.cfg.codes.intTimeout, op := .none }
    ∃ t, exec (.ctlListenDone n r draw) s = .next t
      ∧ match r with
        | .accepted => EngineEffect n { k with
            conn := some (s.nextHandle + used), lsn := lsn, status := .established, recvEnabled := true
            ir := k.ir ||| s.cfg.codes.intCon, op := .none } [req] (used + 1) 0 0 s t
        | .fail => EngineEffect n timedOut [req] used 0 0 s t
        | .failPermission => EngineEffect n timedOut [req] used 1 0 s t

/-- 43_engines.md R245 with 44_network_port.md R285: the completion of a CONNECT; a self-loopback fails without a
request. The token the handle gets is the model's choice (log 6), and when the request is recorded its reading
(log 13). -/
def Obligations.ConnectCompletes : Prop :=
  ∀ (n : SockId) (r : ConnectAnswer) (ms : Nat) (s : State), s.alive = true → (s.sock n).op = .connect ms →
    let m := s.cfg.map
    let k := s.sock n
    let dip := s.loadQuad (sockAddr m n m.oDipr)
    let dport := s.load16 (sockAddr m n m.oDport)
    let port := s.load16 (sockAddr m n m.oPort)
    let req := NetReq.connectTcp dip dport port ms
    let timedOut := { k with ir := k.ir ||| s.cfg.codes.intTimeout, op := .none }
    ∃ t, exec (.ctlConnectDone n r) s = .next t
      ∧ if dip = s.loadQuad m.cSipr ∧ dport = port ∧ dport ∉ s.released then
          EngineEffect n timedOut [] 0 0 0 s t
        else match r with
          | .connected => EngineEffect n { k with
              conn := some s.nextHandle, status := .established, recvEnabled := true
              ir := k.ir ||| s.cfg.codes.intCon, op := .none } [req] 1 0 0 s t
          | .fail => EngineEffect n timedOut [req] 0 0 0 s t

/-- 43_engines.md R246, ESTABLISHED: the stream write, its two failures, and the cursor advance in every case. What is
handed on where more than one ring lies between the cursors is as many free bytes (log 8); that the send request, and
the close request of a dropped handle, are recorded in this step is the model's reading (log 13). -/
def Obligations.TcpSendCompletes : Prop :=
  ∀ (n : SockId) (ok keep : Bool) (s : State), s.alive = true → (s.sock n).op = .send →
    (s.sock n).status = .established →
    let done := { s.sock n with
      txRd := (s.sock n).txWr, ir := (s.sock n).ir ||| s.cfg.codes.intSendOk, op := .none }
    let timedOut := { done with ir := (s.sock n).ir ||| s.cfg.codes.intTimeout }
    let used := ((s.sock n).txWr - (s.sock n).txRd).toNat
    let frees := if used ≤ s.txSize n then 0 else used
    ∃ t data, exec (.ctlSendDone n ok keep) s = .next t
      ∧ data.length = used
      ∧ (used ≤ s.txSize n →
          ∀ i, (h : i < data.length) →
            data[i] = s.load (s.txBase n + ((s.sock n).txRd.toNat + i) % s.txSize n))
      ∧ match (s.sock n).conn with
        | none => EngineEffect n timedOut [] 0 0 frees s t
        | some h =>
          if ok = true then EngineEffect n done [.sendStream h data] 0 0 frees s t
          else if keep = true then EngineEffect n timedOut [.sendStream h data] 0 0 frees s t
          else EngineEffect n { timedOut with conn := none } [.sendStream h data, .close h] 0 0 frees s t

/-- 43_engines.md R246, UDP to any port but the DHCP server's: one datagram, or the failure inside the block of a
self-loopback (44_network_port.md R285) or of a missing handle. What is sent where more than one ring lies between the
cursors is as many free bytes (log 8); that the requests are recorded in this step is the model's reading (log 13). -/
def Obligations.UdpSendCompletes : Prop :=
  ∀ (n : SockId) (ok keep : Bool) (s : State), s.alive = true → (s.sock n).op = .send →
    (s.sock n).status = .udp →
    let m := s.cfg.map
    let dip := s.loadQuad (sockAddr m n m.oDipr)
    let dport := s.load16 (sockAddr m n m.oDport)
    dport ≠ s.cfg.dhcpServerPort →
    let done := { s.sock n with
      txRd := (s.sock n).txWr, ir := (s.sock n).ir ||| s.cfg.codes.intSendOk, op := .none }
    let timedOut := { done with ir := (s.sock n).ir ||| s.cfg.codes.intTimeout }
    let used := ((s.sock n).txWr - (s.sock n).txRd).toNat
    let frees := if used ≤ s.txSize n then 0 else used
    ∃ t data, exec (.ctlSendDone n ok keep) s = .next t
      ∧ data.length = used
      ∧ (used ≤ s.txSize n →
          ∀ i, (h : i < data.length) →
            data[i] = s.load (s.txBase n + ((s.sock n).txRd.toNat + i) % s.txSize n))
      ∧ if dip = s.loadQuad m.cSipr ∧ dport = s.load16 (sockAddr m n m.oPort) ∧ dport ∉ s.released then
          EngineEffect n timedOut [] 0 0 frees s t
        else match (s.sock n).conn with
          | none => EngineEffect n timedOut [] 0 0 frees s t
          | some h =>
            if ok = true then EngineEffect n done [.sendDatagram h dip dport data] 0 0 frees s t
            else if keep = true then EngineEffect n timedOut [.sendDatagram h dip dport data] 0 0 frees s t
            else EngineEffect n { timedOut with conn := none } [.sendDatagram h dip dport data, .close h] 0 0 frees s t

/-- 43_engines.md R246, 45_dhcp_responder.md R301, 46_icmp_echo.md R341: a UDP send to the DHCP server port and every
IPRAW send stay inside the block: the payload runs as the DHCP or ICMP input it decodes to, and the send succeeds. The
payload where more than one ring lies between the cursors is as many free bytes (log 8); the DHCP or ICMP unit as an
instruction of its own is the model's form (log 1). -/
def Obligations.InsideSendRunsItsPayload : Prop :=
  ∀ (n : SockId) (ok keep : Bool) (s : State), s.alive = true → (s.sock n).op = .send →
    let m := s.cfg.map
    let k := { s.sock n with
      txRd := (s.sock n).txWr, op := .none, ir := (s.sock n).ir ||| s.cfg.codes.intSendOk }
    let used := ((s.sock n).txWr - (s.sock n).txRd).toNat
    let frees := if used ≤ s.txSize n then 0 else used
    let source (data : List Byte) : Prop := data.length = used
      ∧ (used ≤ s.txSize n →
          ∀ i, (h : i < data.length) →
            data[i] = s.load (s.txBase n + ((s.sock n).txRd.toNat + i) % s.txSize n))
    ((s.sock n).status = .udp → s.load16 (sockAddr m n m.oDport) = s.cfg.dhcpServerPort →
      ∃ t u data, exec (.ctlSendDone n ok keep) s = .next t ∧ source data
        ∧ exec (decodeDhcp n data) s = .next u
        ∧ EngineEffect n k [] 0 0 frees { s with dhcp := u.dhcp } t)
    ∧ ((s.sock n).status = .ipraw →
      ∃ t u data, exec (.ctlSendDone n ok keep) s = .next t ∧ source data
        ∧ exec (decodeIcmp n (s.load (sockAddr m n m.oProto)) data) s = .next u
        ∧ EngineEffect n k [] 0 0 frees { s with pings := u.pings } t)

/-- 43_engines.md R247: the completion of a close. That it asks for the close of the handles the socket holds and of
nothing else, also after an operation that DISCON or CLOSE abandoned (42_socket_commands.md R200), is the model's choice
(log 24). -/
def Obligations.CloseCompletes : Prop :=
  ∀ (n : SockId) (had : Bool) (s : State), s.alive = true → (s.sock n).op = .close had →
    let m := s.cfg.map
    let k := s.sock n
    let port := s.load16 (sockAddr m n m.oPort)
    ∃ t, exec (.ctlCloseDone n) s = .next t
      ∧ (∀ p, p ∈ t.prov ↔ p ∈ s.prov ∧ p ≠ port)
      ∧ (∀ p, p ∈ t.released ↔ p ∈ s.released ∨ (p = port ∧ port ∈ s.prov))
      ∧ EngineEffect n { k with
          conn := none, lsn := none, status := .closed
          ir := if had = true then k.ir ||| s.cfg.codes.intDiscon else k.ir
          op := .none } ((k.conn.toList ++ k.lsn.toList).map NetReq.close) 0 0 0
          { s with prov := t.prov, released := t.released } t

/-- 43_engines.md R240, R241 and the guard of each engine step (R243 to R253, 45_dhcp_responder.md R310,
46_icmp_echo.md R345): a step whose guard is false changes nothing, whether its engine is idle or busy with something
else; nor does a probe or an expiry of a ping that is not there. That such a step may be presented at all is the
model's form (log 7). -/
def Obligations.DisabledEnginesChangeNothing : Prop :=
  ∀ (n : SockId) (s : State),
    let k := s.sock n
    let room := s.rxSize n - (k.rxWr - k.rxRd).toNat
    let wanted (g : Ping) : Prop :=
      g.outcome = .reachable ∧ g.target = s.loadQuad (sockAddr s.cfg.map n s.cfg.map.oDipr)
    (k.op ≠ .udpBind → ∀ r, exec (.ctlUdpbindDone n r) s = .next s)
    ∧ (k.op ≠ .listen → ∀ r d, exec (.ctlListenDone n r d) s = .next s)
    ∧ ((∀ ms, k.op ≠ .connect ms) → ∀ r, exec (.ctlConnectDone n r) s = .next s)
    ∧ (k.op ≠ .send → ∀ ok keep, exec (.ctlSendDone n ok keep) s = .next s)
    ∧ ((∀ had, k.op ≠ .close had) → exec (.ctlCloseDone n) s = .next s)
    ∧ (∀ avail c, ¬ (k.recvEnabled = true ∧ k.status = .established ∧ k.conn ≠ none
          ∧ 1 ≤ c ∧ c ≤ avail.length ∧ c ≤ room) → exec (.rxTcp n avail c) s = .next s)
    ∧ (¬ (k.recvEnabled = true ∧ k.status = .udp ∧ k.conn ≠ none ∧ 8 ≤ room) →
        ∀ ip port payload, exec (.rxUdp n ip port payload) s = .next s)
    ∧ (¬ (k.recvEnabled = true ∧ k.status = .established ∧ k.conn ≠ none ∧ k.op = .none) →
        exec (.rxEof n) s = .next s)
    ∧ (¬ (k.recvEnabled = true ∧ (k.status = .established ∨ k.status = .udp) ∧ k.conn ≠ none) →
        ∀ keep, exec (.rxError n keep) s = .next s)
    ∧ (¬ (∃ x, s.dhcp = some x ∧ x.deliverable = true ∧ ¬ (x.state = .awaitingRequest ∧ x.deadline < s.now)
          ∧ x.sock = n ∧ k.recvEnabled = true ∧ k.status = .udp ∧ 8 + s.cfg.dhcpFrameLen ≤ room) →
        exec (.rxDhcpDeliver n) s = .next s)
    ∧ (¬ (∃ pre g post, s.pings = pre ++ g :: post ∧ wanted g ∧ (∀ h ∈ pre, ¬ wanted h)
          ∧ k.recvEnabled = true ∧ k.status = .ipraw ∧ s.cfg.iprawInfoHdr + g.payload.length ≤ room) →
        exec (.rxIpraw n) s = .next s)
    ∧ ∀ p, s.pings.length ≤ p →
        (∀ r, exec (.probeDone p r) s = .next s) ∧ exec (.pingExpire p) s = .next s

/-! ## Receive engines -/

/-- 43_engines.md R249 with R250: a TCP receive of `k` stream bytes. That the receive request is recorded in this
step is the model's reading (log 13). -/
def Obligations.TcpReceiveCommits : Prop :=
  ∀ (n : SockId) (avail : List Byte) (k : Nat) (h : Handle) (s : State), s.alive = true →
    (s.sock n).recvEnabled = true → (s.sock n).status = .established → (s.sock n).conn = some h →
    1 ≤ k → k ≤ avail.length → k ≤ s.rxSize n - ((s.sock n).rxWr - (s.sock n).rxRd).toNat →
    ∃ t, exec (.rxTcp n avail k) s = .next t ∧ RxEffect n (avail.take k) [.recvStream h] s t

/-- 43_engines.md R251 with R250 and 30_encoding.md R120: a UDP receive of one datagram, truncated to the room.
That the receive request is recorded in this step is the model's reading (log 13). -/
def Obligations.UdpReceiveCommits : Prop :=
  ∀ (n : SockId) (ip : Quad) (port : Half) (payload : List Byte) (h : Handle) (s : State), s.alive = true →
    (s.sock n).recvEnabled = true → (s.sock n).status = .udp → (s.sock n).conn = some h →
    let free := s.rxSize n - ((s.sock n).rxWr - (s.sock n).rxRd).toNat
    8 ≤ free →
    let k := min payload.length (free - 8)
    ∃ t, exec (.rxUdp n ip port payload) s = .next t
      ∧ RxEffect n ([ip.a, ip.b, ip.c, ip.d, hiByte port, loByte port, BitVec.ofNat 8 (k / 256), BitVec.ofNat 8 k]
          ++ payload.take k) [.recvDatagram h (free - 8)] s t

/-- 43_engines.md R252: end of stream forces CLOSE_WAIT and schedules a close that shows as DISCON. That
the receive request is recorded in this step is the model's reading (log 13). -/
def Obligations.EndOfStreamSchedulesAClose : Prop :=
  ∀ (n : SockId) (h : Handle) (s : State), s.alive = true → (s.sock n).recvEnabled = true →
    (s.sock n).status = .established → (s.sock n).conn = some h → (s.sock n).op = .none →
    ∃ t, exec (.rxEof n) s = .next t
      ∧ CommandEffect n s.cfg.codes.cmdDiscon
          { s.sock n with status := .closeWait, recvEnabled := false, op := .close true }
          { s with netLog := s.netLog ++ [.recvStream h] } t

/-- 43_engines.md R253: a receive error raises TIMEOUT, stops receive and leaves the status; the handle survives
or is dropped. The requests recorded, and when, are the model's reading (log 13). -/
def Obligations.ReceiveErrorTimesOut : Prop :=
  ∀ (n : SockId) (keep : Bool) (h : Handle) (s : State), s.alive = true → (s.sock n).recvEnabled = true →
    ((s.sock n).status = .established ∨ (s.sock n).status = .udp) → (s.sock n).conn = some h →
    let req := if (s.sock n).status = .udp then
        NetReq.recvDatagram h (s.rxSize n - ((s.sock n).rxWr - (s.sock n).rxRd).toNat - 8)
      else .recvStream h
    ∃ t, exec (.rxError n keep) s = .next t
      ∧ CommandEffect n (s.load (sockAddr s.cfg.map n s.cfg.map.oCr)) { s.sock n with
          ir := (s.sock n).ir ||| s.cfg.codes.intTimeout, recvEnabled := false
          conn := if keep = true then some h else none }
          { s with netLog := s.netLog ++ req :: (if keep = true then [] else [.close h]) } t

/-! ## DHCP responder -/

/-- 45_dhcp_responder.md R310: delivery of the OFFER, or of the ACK, which removes the exchange. That the header names
`DHCP_SERVER_PORT` and `DHCP_FRAME_LEN` where these are not 67 and 300 is the model's reading (log 17). -/
def Obligations.DhcpDeliveryCommits : Prop :=
  ∀ (n : SockId) (x : DhcpExchange) (s : State), s.alive = true → s.dhcp = some x → x.deliverable = true →
    ¬ (x.state = .awaitingRequest ∧ x.deadline < s.now) → x.sock = n → (s.sock n).recvEnabled = true →
    (s.sock n).status = .udp → x.buf.length = s.cfg.dhcpFrameLen →
    8 + s.cfg.dhcpFrameLen ≤ s.rxSize n - ((s.sock n).rxWr - (s.sock n).rxRd).toNat →
    let port := s.cfg.dhcpServerPort
    let len : Half := BitVec.ofNat 16 s.cfg.dhcpFrameLen
    ∃ t, exec (.rxDhcpDeliver n) s = .next t
      ∧ RxEffect n ([x.serverIp.a, x.serverIp.b, x.serverIp.c, x.serverIp.d, hiByte port, loByte port, hiByte len,
            loByte len] ++ x.buf) []
          { s with dhcp := if x.state = .done then none else some { x with deliverable := false } } t

/-- 45_dhcp_responder.md R304: a broadcast DISCOVER takes the slot if it is free or its exchange has expired; any
other is ignored. -/
def Obligations.DiscoverCreatesTheExchange : Prop :=
  ∀ (n : SockId) (f : DhcpFrame) (s : State), s.alive = true →
    let m := s.cfg.map
    let ip := s.loadQuad (sockAddr m n m.oDipr)
    let sub := s.loadQuad m.cSubr
    let bcast : Prop := ip = ⟨0xFF, 0xFF, 0xFF, 0xFF⟩
      ∨ ((ip.a ||| sub.a = 0xFF ∧ ip.b ||| sub.b = 0xFF ∧ ip.c ||| sub.c = 0xFF ∧ ip.d ||| sub.d = 0xFF)
          ∧ sub ≠ ⟨0, 0, 0, 0⟩)
    let free : Prop := ∀ x, s.dhcp = some x → x.state = .awaitingRequest ∧ x.deadline < s.now
    (bcast ∧ free → exec (.dhcpDiscover n f) s = .next { s with dhcp := some {
        state := .awaitingRequest, clientIp := s.seed.ip, serverIp := s.cfg.dhcpServerIp, xid := f.xid
        chaddr := f.chaddr, buf := buildOffer f s.seed s.cfg, deliverable := true, deadline := s.now + 1000
        sock := n } })
    ∧ (¬ (bcast ∧ free) → exec (.dhcpDiscover n f) s = .next s)

/-- 45_dhcp_responder.md R305: the OFFER, byte for byte, for every frame length that holds its options; and it parses
as an OFFER with the fields of the DISCOVER (R302, R124). -/
def Obligations.OfferFrameIsAsTabled : Prop :=
  ∀ (f : DhcpFrame) (seed : Seed) (cfg : Config.Params), f.chaddr.length = 16 → 274 ≤ cfg.dhcpFrameLen →
    let b := buildOffer f seed cfg
    let q (x : Quad) : List Byte := [x.a, x.b, x.c, x.d]
    b.length = cfg.dhcpFrameLen
    ∧ b.take 4 = [0x02, f.htype, f.hlen, 0x00] ∧ (b.drop 4).take 4 = q f.xid
    ∧ (b.drop 8).take 2 = [0, 0] ∧ (b.drop 10).take 2 = [hiByte f.flags, loByte f.flags]
    ∧ (b.drop 12).take 4 = [0, 0, 0, 0] ∧ (b.drop 16).take 4 = q seed.ip
    ∧ (b.drop 20).take 4 = q cfg.dhcpServerIp ∧ (b.drop 24).take 4 = [0, 0, 0, 0]
    ∧ (b.drop 28).take 16 = f.chaddr ∧ (b.drop 44).take 192 = List.replicate 192 0
    ∧ (b.drop 236).take 4 = [0x63, 0x82, 0x53, 0x63] ∧ (b.drop 240).take 3 = [0x35, 0x01, 0x02]
    ∧ (b.drop 243).take 6 = [0x36, 0x04] ++ q cfg.dhcpServerIp
    ∧ (b.drop 249).take 6 = [0x33, 0x04] ++ wordBytes cfg.dhcpLeaseS
    ∧ (b.drop 255).take 6 = [0x01, 0x04] ++ q seed.subnet
    ∧ (b.drop 261).take 6 = [0x03, 0x04] ++ q seed.gateway
    ∧ (b.drop 267).take 6 = [0x06, 0x04] ++ q seed.dns
    ∧ b.drop 273 = 0xFF :: List.replicate (cfg.dhcpFrameLen - 274) 0
    ∧ parseDhcp b = some { f with ciaddr := ⟨0, 0, 0, 0⟩, msgtype := 0x02, serverId := some cfg.dhcpServerIp }

/-- 45_dhcp_responder.md R306, R307: a matching REQUEST in time turns the OFFER into the ACK by one byte; any other
is ignored. -/
def Obligations.RequestTurnsOfferIntoAck : Prop :=
  ∀ (n : SockId) (f : DhcpFrame) (s : State), s.alive = true →
    (s.dhcp = none → exec (.dhcpRequest n f) s = .next s)
    ∧ ∀ x, s.dhcp = some x →
      let ok : Prop := x.state = .awaitingRequest ∧ s.now ≤ x.deadline ∧ f.xid = x.xid ∧ f.chaddr = x.chaddr
        ∧ (f.serverId = some x.serverIp ∨ (f.serverId = none ∧ f.ciaddr = x.clientIp))
      (ok → ∃ buf : List Byte,
          exec (.dhcpRequest n f) s =
            .next { s with dhcp := some { x with buf := buf, deliverable := true, state := .done, sock := n } }
          ∧ buf.length = x.buf.length
          ∧ (∀ h : 242 < buf.length, buf[242] = 0x05)
          ∧ ∀ i, i ≠ 242 → buf[i]? = x.buf[i]?)
      ∧ (¬ ok → exec (.dhcpRequest n f) s = .next s)

/-- 45_dhcp_responder.md R303, R308, 46_icmp_echo.md R343: an invalid frame, a valid frame of another type and an
IPRAW payload that is no echo request change nothing. That such an input may be presented to a destroyed block, and then
answers the same state, is the model's form (log 7): 70_reset_and_hazards.md R445 has no such step. -/
def Obligations.OtherPayloadsAreIgnored : Prop :=
  ∀ (n : SockId) (s : State),
    (∀ f, exec (.dhcpOther n f) s = .next s) ∧ (∀ data, exec (.dhcpInvalid n data) s = .next s)
    ∧ ∀ proto payload, exec (.icmpOther n proto payload) s = .next s

/-- 45_dhcp_responder.md R309: expiry removes an exchange that still awaits its REQUEST after its deadline, and
only such a one. That an expiry presented without its guard changes nothing is the model's form (log 7). -/
def Obligations.ExpiryFreesTheSlot : Prop :=
  ∀ s : State, s.alive = true →
    let dead : Prop := ∃ x, s.dhcp = some x ∧ x.state = .awaitingRequest ∧ x.deadline < s.now
    (dead → exec .dhcpExpire s = .next { s with dhcp := none })
    ∧ (¬ dead → exec .dhcpExpire s = .next s)

/-! ## ICMP echo -/

/-- 46_icmp_echo.md R342: an echo request appends a pending ping for the socket's configured peer. -/
def Obligations.EchoRequestAppendsAPing : Prop :=
  ∀ (n : SockId) (payload : List Byte) (s : State), s.alive = true →
    exec (.icmpEchoRequest n payload) s = .next { s with
      pings := s.pings ++ [{
        target := s.loadQuad (sockAddr s.cfg.map n s.cfg.map.oDipr), payload := payload, outcome := .pending }] }

/-- 46_icmp_echo.md R344 and R347: a probe marks or removes its pending ping; a reached ping may expire. That a probe
of a reached ping and an expiry of a pending one, which the spec does not have, answer the same state is the model's
form (log 7); that the probe request is recorded in this step is its reading (log 13). -/
def Obligations.ProbesAndExpiryMovePings : Prop :=
  ∀ (pre post : List Ping) (g : Ping) (s : State), s.alive = true → s.pings = pre ++ g :: post →
    (g.outcome = .pending →
      exec (.probeDone pre.length true) s = .next { s with
        pings := pre ++ { g with outcome := .reachable } :: post, netLog := s.netLog ++ [.probe g.target] }
      ∧ exec (.probeDone pre.length false) s = .next { s with
        pings := pre ++ post, netLog := s.netLog ++ [.probe g.target] }
      ∧ exec (.pingExpire pre.length) s = .next s)
    ∧ (g.outcome = .reachable →
      (∀ r, exec (.probeDone pre.length r) s = .next s)
      ∧ exec (.pingExpire pre.length) s = .next { s with pings := pre ++ post })

/-- 46_icmp_echo.md R345: the first reached ping for the configured peer is answered with its echo reply, and
consumed. The header ahead of it has `IPRAW_INFO_HDR` bytes, those 30_encoding.md R121 lays out where they are 6; of
any other length but 0 they are free values, and counted as such: the model's choice (log 8). -/
def Obligations.EchoReplyIsDelivered : Prop :=
  ∀ (n : SockId) (pre post : List Ping) (g : Ping) (s : State), s.alive = true →
    let peer := s.loadQuad (sockAddr s.cfg.map n s.cfg.map.oDipr)
    let len := s.cfg.iprawInfoHdr
    (s.sock n).recvEnabled = true → (s.sock n).status = .ipraw → s.pings = pre ++ g :: post →
    g.outcome = .reachable → g.target = peer → (∀ h ∈ pre, ¬ (h.outcome = .reachable ∧ h.target = peer)) →
    8 ≤ g.payload.length →
    len + g.payload.length ≤ s.rxSize n - ((s.sock n).rxWr - (s.sock n).rxRd).toNat →
    ∃ t header, exec (.rxIpraw n) s = .next t
      ∧ header.length = len
      ∧ (len = 6 → header = [g.target.a, g.target.b, g.target.c, g.target.d,
          BitVec.ofNat 8 (g.payload.length / 256), BitVec.ofNat 8 g.payload.length])
      ∧ RxEffect n (header ++ echoReply g.payload) []
          { s with pings := pre ++ post, freeUsed := s.freeUsed + if len = 6 then 0 else len } t

/-- 46_icmp_echo.md R346: the reply is the request with type and code 0 and a checksum under which the whole
message sums to 0xFFFF in ones'-complement arithmetic. -/
def Obligations.EchoReplyVerifies : Prop :=
  ∀ req : List Byte, 8 ≤ req.length →
    let rep := echoReply req
    rep.length = req.length ∧ rep.take 2 = [0x00, 0x00] ∧ rep.drop 4 = req.drop 4
    ∧ ∃ fuel, foldCarry fuel (wordSum rep) = 0xFFFF

/-! ## Facade -/

/-- 47_firmware_facade.md R366 to R370 and R372 to R376: the commands that answer at once. What an unknown opcode
does to unread results is the model's reading (log 14). -/
def Obligations.FacadeCommandsAnswer : Prop :=
  ∀ s : State, s.alive = true →
    let ans (out : List Byte) : State := { s with fa := { s.fa with out := out, phase := .idle } }
    let err : Byte := BitVec.ofNat 8 (min (s.fa.err.toNat + 1) 255)
    let bad (out : List Byte) : State := { s with fa := { s.fa with out := out, phase := .idle, err := err } }
    let low (w : Half) : List Byte := [loByte w, hiByte w]
    (∀ a, exec (.fSetaddr a) s = .next { s with fa := { s.fa with addr := a, out := [], phase := .idle } })
    ∧ exec .fGetaddr s = .next (ans (low s.fa.addr))
    ∧ (s.fa.t0 ≤ s.now →
        exec .fRdtimer s = .next (ans (low (BitVec.ofNat 16 ((s.now - s.fa.t0) % 65536)))))
    ∧ (∀ (i : Byte) (ip : Quad), (h : i.toNat < 8) → exec (.fWrip i ip) s = .next { s with
        fa := { s.fa with ip := s.fa.ip.set i.toNat ip, out := [], phase := .idle } })
    ∧ (∀ (i : Byte) (ip : Quad), 8 ≤ i.toNat → exec (.fWrip i ip) s = .next (bad []))
    ∧ (∀ i : Byte, (h : i.toNat < 8) → exec (.fRdip i) s = .next (ans
        [s.fa.ip[i.toNat].a, s.fa.ip[i.toNat].b, s.fa.ip[i.toNat].c, s.fa.ip[i.toNat].d]))
    ∧ (∀ i : Byte, 8 ≤ i.toNat → exec (.fRdip i) s = .next (bad [0, 0, 0, 0]))
    ∧ exec .fSwver s = .next (ans (low s.cfg.facadeSwver))
    ∧ exec .fHwver s = .next (ans (low s.cfg.facadeHwver))
    ∧ exec .fLink s = .next (ans [s.linkIn])
    ∧ exec .fId s = .next (ans (s.cfg.facadeId ++ [0x00]))
    ∧ exec .fErrcnt s = .next (ans [s.fa.err])
    ∧ ∀ op, exec (.fUnknown op) s = .next (bad [])

/-- 47_firmware_facade.md R365: a block read answers what bus reads at ascending addresses would, all in one
step. -/
def Obligations.FacadeBlockReadIsASnapshot : Prop :=
  ∀ (count : Half) (s : State), s.alive = true →
    ∃ out : List Byte, exec (.fRdbytes count) s = .next { s with
        fa := { s.fa with out := out, phase := .idle, addr := s.fa.addr + count } }
      ∧ out.length = count.toNat
      ∧ ∀ i, (h : i < out.length) →
          exec (.rd (s.fa.addr + BitVec.ofNat 16 i)) s = .next { s with rdata := out[i] }

/-- 47_firmware_facade.md R364: a block write is the bus writes of its data at ascending addresses, with all their
side effects; it completes where none of them can be refused. -/
def Obligations.FacadeBlockWriteIsBusWrites : Prop :=
  ∀ (data : List Byte) (s : State), s.alive = true → data.length < 65536 →
    (exec (.fWrbytes data) s = match busWrites s.fa.addr data s with
      | .next t => .next { t with fa := { s.fa with
          addr := s.fa.addr + BitVec.ofNat 16 data.length, out := [], phase := .idle } }
      | .fault r => .fault r
      | .refused r => .refused r)
    ∧ ((∀ i, i < data.length → NeverRefused s.cfg.map (s.fa.addr + BitVec.ofNat 16 i)) →
        Completes (exec (.fWrbytes data) s))

/-- 47_firmware_facade.md R371: the port drawn is not 0, was not reserved and is now; every such port is drawn
under some value of the line, and only a full set is refused. How the draw is made is the model's choice (log 9). -/
def Obligations.PortAllocationReserves : Prop :=
  ∀ s : State, s.alive = true →
    ((∃ p : Half, p ≠ 0 ∧ p ∉ s.prov) →
      ∃ p : Half, p ≠ 0 ∧ p ∉ s.prov
        ∧ (s.portIn ≠ 0 → s.portIn ∉ s.prov → p = s.portIn)
        ∧ exec .fPortno s = .next { s with
            prov := s.prov ++ [p], netLog := s.netLog ++ [.reservePort]
            fa := { s.fa with out := [loByte p, hiByte p], phase := .idle } })
    ∧ ((∀ p : Half, p ≠ 0 → p ∈ s.prov) → exec .fPortno s = .refused .noFreePort)

/-- 47_firmware_facade.md R363, R360: bytes handed to the facade one by one or in runs have the same effect (that
several bytes may be handed over in one step at all is the model's choice, log 1); a read of the data port pops the
head of the results, 0x00 if there is none; a read of the status port shows IN_READY always and OUT_VALID while a
result waits, bits 7:2 zero, and changes nothing else; a write of the status port is ignored. -/
def Obligations.FacadeFramingIsByteWise : Prop :=
  (∀ (xs ys : List Byte) (rest : List Stimulus) (s : State),
    step { s with inputs := .op (.fcmd (xs ++ ys)) :: rest } =
      match step { s with inputs := .op (.fcmd xs) :: .op (.fcmd ys) :: rest } with
      | .next t => step t
      | .fault r => .fault r
      | .refused r => .refused r)
  ∧ ∀ (rest : List Stimulus) (s : State), s.alive = true →
      step { s with inputs := .portRead :: rest } = .next { s with
        inputs := rest, fdata := s.fa.out.headD 0x00, fa := { s.fa with out := s.fa.out.tail } }
      ∧ (∃ b : Byte, step { s with inputs := .statusRead :: rest } = .next { s with inputs := rest, fstatus := b }
          ∧ b.getLsbD 0 = true ∧ b.getLsbD 1 = decide (s.fa.out ≠ []) ∧ ∀ i, 2 ≤ i → b.getLsbD i = false)
      ∧ ∀ b, step { s with inputs := .statusWrite b :: rest } = .next { s with inputs := rest }

/-! ## Decoding and the step -/

/-- 30_encoding.md R110: the next unit of the schedule is decoded and its instruction executed; a facade command
runs byte by byte from the idle parser to the same effect. With nothing scheduled the block does nothing
(70_reset_and_hazards.md R447). The schedule `inputs`, and a whole facade command as one unit of it, are the model's
choice (log 1). -/
def Obligations.StepRunsTheDecodedUnit : Prop :=
  (∀ (p : Packet) (i : Instr) (rest : List Stimulus) (s : State),
    decode s.cfg p = .ok i → (∀ bytes, p = .fcmd bytes → s.fa.phase = .idle) →
    step { s with inputs := .op p :: rest } = exec i { s with inputs := rest })
  ∧ ∀ s : State, s.inputs = [] → step s = .next s

/-- The formats of 30_encoding.md: decoding the encoding of a well-formed instruction gives it back, for every
instruction and every operand, with the addresses and codes the tables list. -/
def Obligations.DecodeOfEncodeIsIdentity : Prop :=
  ∀ (c : Config.Params) (i : Instr), c.Tabled → i.wf c = true → decode c (encode c i) = .ok i

/-- Words of 95_test_vectors.md sections 2 and 3 and codes of 30_encoding.md R112, R116 and 47_firmware_facade.md
R362 decode to the instructions they stand for. -/
def Obligations.SampleUnitsDecode : Prop :=
  let read := decode Config.defaults
  read (.bus 0x0040300) = .ok (.rd 0x0403) ∧ read (.bus 0x1000080) = .ok (.wrCMr 0x80)
  ∧ read (.bus 0x1050101) = .ok (.wrSnCr 1 0x01) ∧ read (.bus 0x1042505) = .ok (.wrSnTxWrLo 0 0x05)
  ∧ read (.bus 0x1400048) = .ok (.wr 0x4000 0x48) ∧ read (.scmd 2 0x21) = .ok (.scmdSendMac 2)
  ∧ read (.scmd 2 0x41) = .ok (.scmdUnrecognised 2 0x41) ∧ read (.smode 3 0x82) = .ok (.smodeUdp 3 8)
  ∧ read (.fcmd [0x02, 0x24, 0x04]) = .ok (.fSetaddr 0x0424)
  ∧ read (.fcmd [0x00, 0x02, 0x00, 0x00, 0x0A]) = .ok (.fWrbytes [0x00, 0x0A])

/-! ## Invariants -/

/-- The machine after reset satisfies the invariant of the block. -/
def Obligations.ResetSatisfiesTheInvariant : Prop := State.reset.Inv ∧ State.reset.rxBounded

/-- 10_state.md R61 (c), (d), (e), R43, R23, R62 to R64 and the canonical form of the storage, in the layout the
tables list: every step keeps the invariant. -/
def Obligations.EveryStepKeepsTheInvariant : Prop :=
  ∀ s t : State, s.Inv → step s = .next t → t.Inv

/-- 10_state.md R61 (f), 41_ring_buffers.md R185: no receive ring comes to hold more than it has room for, in any
step that leaves the receive selectors as they are (hazard H5). -/
def Obligations.ReceiveRingsNeverOverflow : Prop :=
  ∀ s t : State, s.Inv → s.rxBounded → step s = .next t → t.load 0x001A = s.load 0x001A → t.rxBounded

/-- 60_exceptions.md R401, R402: no operation but those listed raises a bit of a socket interrupt register, and
each raises only its own, on its own socket; a facade block write only on a socket whose command byte its data meet
with a code that raises that bit. -/
def Obligations.OnlyListedOperationsRaiseBits : Prop :=
  ∀ (i : Instr) (s t : State) (n : SockId) (b : Nat), exec i s = .next t →
    (s.sock n).ir.getLsbD b = false → (t.sock n).ir.getLsbD b = true → mayRaise s i n b = true

/-- 42_socket_commands.md R212, R213: a status moves only along the transition table; CLOSED is reached only by the
completion of a close or by a reset. A facade block write may take several moves, one for each byte: only those that
commands make by themselves, so it never brings a socket to ESTABLISHED or CLOSE_WAIT, and to CLOSED only where one of
its bytes with bit 7 set meets `C.MR`. -/
def Obligations.StatusMovesFollowTheTable : Prop :=
  ∀ (i : Instr) (s t : State) (n : SockId), s.Inv → exec i s = .next t →
    let x := (s.sock n).status
    let y := (t.sock n).status
    let reset := resets s i
    ((∃ data, i = .fWrbytes data) →
        Relation.ReflTransGen (ByteMove reset) x y
        ∧ (y = .established ∨ y = .closeWait → y = x) ∧ (y = .closed → y = x ∨ reset = true))
    ∧ ((∀ data, i ≠ .fWrbytes data) →
        y = x ∨ (y = .closed ∧ (reset = true ∨ i = .ctlCloseDone n)) ∨ (y ≠ .closed ∧ statusMove x y = true))
end

