-- ==== Sys2Proof/Laws/Memory.lean ====
section
/-! SUPPORT. The laws of the window's storage: read after write, and the canonical form that every memory operation keeps. -/

namespace Sys2Proof.Machine

open Sys2Proof

theorem Memory.read_insert (m : Memory) (a b : Nat) (v : Byte) (h : ∀ c ∈ m, c.1 ≠ a) :
    Memory.read (Memory.insert m a v) b = if b = a then v else Memory.read m b := by
  induction m with
  | nil =>
    by_cases hb : b = a
    · simp [Memory.insert, Memory.read, hb]
    · simp [Memory.insert, Memory.read, hb, Ne.symm hb]
  | cons c m ih =>
    obtain ⟨x, w⟩ := c
    have hx : x ≠ a := h (x, w) (by simp)
    have ih' := ih (fun c hc => h c (by simp [hc]))
    by_cases hlt : a < x
    · by_cases hb : b = a
      · subst hb; simp [Memory.insert, hlt, Memory.read]
      · simp [Memory.insert, hlt, Memory.read, Ne.symm hb, hb]
    · by_cases hb : b = a
      · subst hb; simp [Memory.insert, hlt, Memory.read, hx, ih']
      · simp [Memory.insert, hlt, Memory.read, ih', hb]

theorem Memory.read_erase (m : Memory) (a b : Nat) :
    Memory.read (Memory.erase m a) b = if b = a then Memory.unlisted else Memory.read m b := by
  induction m with
  | nil => simp [Memory.erase, Memory.read]
  | cons c m ih =>
    obtain ⟨x, w⟩ := c
    have ih' : Memory.read (List.filter (fun c => c.1 != a) m) b =
        if b = a then Memory.unlisted else Memory.read m b := ih
    by_cases hx : x = a
    · subst hx
      by_cases hb : b = x
      · subst hb; simpa [Memory.erase] using ih'
      · simp [Memory.erase, ih', hb, Memory.read, Ne.symm hb]
    · by_cases hb : b = a
      · subst hb; simp [Memory.erase, hx, Memory.read, ih']
      · simp [Memory.erase, hx, Memory.read, ih', hb]

theorem Memory.erase_ne (m : Memory) (a : Nat) : ∀ c ∈ Memory.erase m a, c.1 ≠ a := by
  intro c hc
  simp [Memory.erase] at hc
  exact hc.2

/-- Reading after a write: the byte written there, every other byte as before. No hypothesis on the form. -/
theorem Memory.read_write (m : Memory) (a b : Nat) (v : Byte) :
    Memory.read (Memory.write m a v) b = if b = a then v else Memory.read m b := by
  unfold Memory.write
  split
  · next h => subst h; exact Memory.read_erase m a b
  · rw [Memory.read_insert _ _ _ _ (Memory.erase_ne m a), Memory.read_erase]
    split <;> rfl

/-- A run of bytes is written at ascending addresses. -/
theorem Memory.read_writeList (vs : List Byte) (m : Memory) (a b : Nat) :
    Memory.read (Memory.writeList m a vs) b =
      if h : a ≤ b ∧ b < a + vs.length then vs[b - a]'(by omega) else Memory.read m b := by
  induction vs generalizing m a with
  | nil => simp [Memory.writeList, show ¬ (a ≤ b ∧ b < a) by omega]
  | cons v vs ih =>
    rw [Memory.writeList, ih, Memory.read_write]
    simp only [List.length_cons]
    by_cases h1 : a + 1 ≤ b ∧ b < a + 1 + vs.length
    · rw [dif_pos h1, dif_pos (show a ≤ b ∧ b < a + (vs.length + 1) by omega)]
      obtain ⟨k, hk⟩ : ∃ k, b - a = k + 1 := ⟨b - a - 1, by omega⟩
      simp [hk, show b - (a + 1) = k by omega]
    · by_cases h2 : b = a
      · subst h2; simp
      · rw [dif_neg h1, if_neg h2, dif_neg (show ¬ (a ≤ b ∧ b < a + (vs.length + 1)) by omega)]

/-! ## The canonical form -/

theorem Memory.wfAbove_mono (m : Memory) (lo lo' : Nat) (h : lo' ≤ lo) (hm : Memory.wfAbove lo m) :
    Memory.wfAbove lo' m := by
  cases m with
  | nil => rfl
  | cons c m =>
    obtain ⟨x, w⟩ := c
    simp [Memory.wfAbove] at *
    exact ⟨⟨by omega, hm.1.2⟩, hm.2⟩

theorem Memory.wfAbove_filter (p : Host.Cell → Bool) (m : Memory) (lo : Nat) (hm : Memory.wfAbove lo m) :
    Memory.wfAbove lo (m.filter p) := by
  induction m generalizing lo with
  | nil => exact hm
  | cons c m ih =>
    obtain ⟨x, w⟩ := c
    simp [Memory.wfAbove] at hm
    by_cases hp : p (x, w)
    · simp [hp, Memory.wfAbove, hm.1, ih _ hm.2]
    · simp [hp]
      exact Memory.wfAbove_mono _ (x + 1) lo (by omega) (ih _ hm.2)

theorem Memory.wfAbove_insert (m : Memory) (lo a : Nat) (v : Byte) (hv : v ≠ Memory.unlisted) (ha : lo ≤ a)
    (hne : ∀ c ∈ m, c.1 ≠ a) (hm : Memory.wfAbove lo m) : Memory.wfAbove lo (Memory.insert m a v) := by
  induction m generalizing lo with
  | nil => simp [Memory.insert, Memory.wfAbove, hv, ha]
  | cons c m ih =>
    obtain ⟨x, w⟩ := c
    have hx : x ≠ a := hne (x, w) (by simp)
    simp [Memory.wfAbove] at hm
    unfold Memory.insert
    split
    · simp [Memory.wfAbove, hv, ha, hm.1.2, hm.2]; omega
    · simp only [Memory.wfAbove, Bool.and_eq_true, decide_eq_true_eq]
      exact ⟨hm.1, ih (x + 1) (by omega) (fun c hc => hne c (by simp [hc])) hm.2⟩

theorem Memory.wf_erase (m : Memory) (a : Nat) (h : Memory.wf m) : Memory.wf (Memory.erase m a) :=
  Memory.wfAbove_filter _ m 0 h

/-- A write keeps the canonical form. -/
theorem Memory.wf_write (m : Memory) (a : Nat) (v : Byte) (h : Memory.wf m) :
    Memory.wf (Memory.write m a v) := by
  unfold Memory.write
  split
  · exact Memory.wf_erase m a h
  · next hv =>
    exact Memory.wfAbove_insert _ 0 a v hv (Nat.zero_le a) (Memory.erase_ne m a) (Memory.wf_erase m a h)

theorem Memory.wf_writeList (vs : List Byte) (m : Memory) (a : Nat) (h : Memory.wf m) :
    Memory.wf (Memory.writeList m a vs) := by
  induction vs generalizing m a with
  | nil => exact h
  | cons v vs ih => exact ih _ _ (Memory.wf_write m a v h)

theorem Memory.wf_ringWrite (bs : List Byte) (m : Memory) (base size p : Nat) (h : Memory.wf m) :
    Memory.wf (ringWrite m base size p bs) := by
  induction bs generalizing m p with
  | nil => exact h
  | cons b bs ih => exact ih _ _ (Memory.wf_write _ _ _ h)

theorem Memory.wf_nil : Memory.wf [] := rfl

/-- The window after reset is in canonical form. -/
theorem State.reset_mem_wf : Memory.wf State.reset.mem := by decide

/-! ## Ring writes -/

/-- A ring write leaves every address outside the ring alone. -/
theorem read_ringWrite_outside (bs : List Byte) (m : Memory) (base size p b : Nat) (hs : 0 < size)
    (hb : b < base ∨ base + size ≤ b) :
    Memory.read (ringWrite m base size p bs) b = Memory.read m b := by
  induction bs generalizing m p with
  | nil => rfl
  | cons x bs ih =>
    rw [ringWrite, ih, Memory.read_write]
    have := Nat.mod_lt p hs
    rw [if_neg (by unfold ringAddr; omega)]

/-- A ring write leaves every ring byte alone that no cursor position of the run addresses. -/
theorem read_ringWrite_other (bs : List Byte) (m : Memory) (base size p b : Nat)
    (hb : ∀ i < bs.length, b ≠ ringAddr base size (p + i)) :
    Memory.read (ringWrite m base size p bs) b = Memory.read m b := by
  induction bs generalizing m p with
  | nil => rfl
  | cons x bs ih =>
    rw [ringWrite, ih _ _ (fun i hi => by
      have := hb (i + 1) (by simpa using hi)
      rwa [show p + (i + 1) = p + 1 + i by omega] at this), Memory.read_write]
    rw [if_neg (by simpa using hb 0 (by simp))]

/-- Two cursor positions less than one ring apart have different addresses. -/
theorem ringAddr_ne (base size p i j : Nat) (hij : i < j) (hj : j < i + size) :
    ringAddr base size (p + i) ≠ ringAddr base size (p + j) := by
  unfold ringAddr
  intro h
  have h2 : (p + i) % size = (p + j) % size := by omega
  have h3 : (p + j) - (p + i) = j - i := by omega
  have h4 := Nat.sub_mod_eq_zero_of_mod_eq h2.symm
  rw [h3, Nat.mod_eq_of_lt (by omega)] at h4
  omega

/-- A run no longer than the ring reads back as written. -/
theorem read_ringWrite_run (bs : List Byte) (m : Memory) (base size p i : Nat) (hlen : bs.length ≤ size)
    (hi : i < bs.length) :
    Memory.read (ringWrite m base size p bs) (ringAddr base size (p + i)) = bs[i] := by
  induction bs generalizing m p i with
  | nil => simp at hi
  | cons x bs ih =>
    rw [ringWrite]
    cases i with
    | zero =>
      rw [read_ringWrite_other]
      · rw [Memory.read_write]; simp
      · intro j hj
        have := ringAddr_ne base size p 0 (j + 1) (by omega) (by simp at hlen; omega)
        rwa [show p + (j + 1) = p + 1 + j by omega] at this
    | succ i =>
      have hi' : i < bs.length := by simpa using hi
      have hl' : bs.length ≤ size := by simp at hlen; omega
      have := ih (Memory.write m (ringAddr base size p) x) (p + 1) i hl' hi'
      rw [show p + (i + 1) = p + 1 + i by omega]
      simpa using this

/-- What a ring write leaves, all at once: reading the run back gives the bytes written. -/
theorem ringRead_ringWrite (bs : List Byte) (m : Memory) (base size p : Nat) (hlen : bs.length ≤ size) :
    ringRead (ringWrite m base size p bs) base size p bs.length = bs := by
  apply List.ext_getElem
  · simp [ringRead]
  · intro i h1 h2
    simp [ringRead]
    exact read_ringWrite_run bs m base size p i hlen h2

end Sys2Proof.Machine
end

