-- ==== Sys2Proof/Laws/State.lean ====
section
/-! SUPPORT. One lemma per field per update of State, and what each update leaves of the two views a rule reads: the record of a socket and the stored byte at an address. -/

namespace Sys2Proof.Machine

open Sys2Proof

variable (s : State)

/-! ## poke -/

@[simp] theorem State.poke_socks (a : Nat) (v : Byte) : (s.poke a v).socks = s.socks := rfl
@[simp] theorem State.poke_dhcp (a : Nat) (v : Byte) : (s.poke a v).dhcp = s.dhcp := rfl
@[simp] theorem State.poke_pings (a : Nat) (v : Byte) : (s.poke a v).pings = s.pings := rfl
@[simp] theorem State.poke_prov (a : Nat) (v : Byte) : (s.poke a v).prov = s.prov := rfl
@[simp] theorem State.poke_released (a : Nat) (v : Byte) : (s.poke a v).released = s.released := rfl
@[simp] theorem State.poke_alive (a : Nat) (v : Byte) : (s.poke a v).alive = s.alive := rfl
@[simp] theorem State.poke_fa (a : Nat) (v : Byte) : (s.poke a v).fa = s.fa := rfl
@[simp] theorem State.poke_seed (a : Nat) (v : Byte) : (s.poke a v).seed = s.seed := rfl
@[simp] theorem State.poke_now (a : Nat) (v : Byte) : (s.poke a v).now = s.now := rfl
@[simp] theorem State.poke_seedIn (a : Nat) (v : Byte) : (s.poke a v).seedIn = s.seedIn := rfl
@[simp] theorem State.poke_linkIn (a : Nat) (v : Byte) : (s.poke a v).linkIn = s.linkIn := rfl
@[simp] theorem State.poke_portIn (a : Nat) (v : Byte) : (s.poke a v).portIn = s.portIn := rfl
@[simp] theorem State.poke_inputs (a : Nat) (v : Byte) : (s.poke a v).inputs = s.inputs := rfl
@[simp] theorem State.poke_rdata (a : Nat) (v : Byte) : (s.poke a v).rdata = s.rdata := rfl
@[simp] theorem State.poke_fdata (a : Nat) (v : Byte) : (s.poke a v).fdata = s.fdata := rfl
@[simp] theorem State.poke_fstatus (a : Nat) (v : Byte) : (s.poke a v).fstatus = s.fstatus := rfl
@[simp] theorem State.poke_notices (a : Nat) (v : Byte) : (s.poke a v).notices = s.notices := rfl
@[simp] theorem State.poke_netLog (a : Nat) (v : Byte) : (s.poke a v).netLog = s.netLog := rfl
@[simp] theorem State.poke_nextHandle (a : Nat) (v : Byte) : (s.poke a v).nextHandle = s.nextHandle := rfl
@[simp] theorem State.poke_freeUsed (a : Nat) (v : Byte) : (s.poke a v).freeUsed = s.freeUsed := rfl
@[simp] theorem State.poke_cfg (a : Nat) (v : Byte) : (s.poke a v).cfg = s.cfg := rfl
@[simp] theorem State.poke_sock (a : Nat) (v : Byte) (m : SockId) : (s.poke a v).sock m = s.sock m := rfl

/-! ## pokeList -/

@[simp] theorem State.pokeList_socks (a : Nat) (l : List Byte) : (s.pokeList a l).socks = s.socks := rfl
@[simp] theorem State.pokeList_dhcp (a : Nat) (l : List Byte) : (s.pokeList a l).dhcp = s.dhcp := rfl
@[simp] theorem State.pokeList_pings (a : Nat) (l : List Byte) : (s.pokeList a l).pings = s.pings := rfl
@[simp] theorem State.pokeList_prov (a : Nat) (l : List Byte) : (s.pokeList a l).prov = s.prov := rfl
@[simp] theorem State.pokeList_released (a : Nat) (l : List Byte) : (s.pokeList a l).released = s.released := rfl
@[simp] theorem State.pokeList_alive (a : Nat) (l : List Byte) : (s.pokeList a l).alive = s.alive := rfl
@[simp] theorem State.pokeList_fa (a : Nat) (l : List Byte) : (s.pokeList a l).fa = s.fa := rfl
@[simp] theorem State.pokeList_seed (a : Nat) (l : List Byte) : (s.pokeList a l).seed = s.seed := rfl
@[simp] theorem State.pokeList_now (a : Nat) (l : List Byte) : (s.pokeList a l).now = s.now := rfl
@[simp] theorem State.pokeList_seedIn (a : Nat) (l : List Byte) : (s.pokeList a l).seedIn = s.seedIn := rfl
@[simp] theorem State.pokeList_linkIn (a : Nat) (l : List Byte) : (s.pokeList a l).linkIn = s.linkIn := rfl
@[simp] theorem State.pokeList_portIn (a : Nat) (l : List Byte) : (s.pokeList a l).portIn = s.portIn := rfl
@[simp] theorem State.pokeList_inputs (a : Nat) (l : List Byte) : (s.pokeList a l).inputs = s.inputs := rfl
@[simp] theorem State.pokeList_rdata (a : Nat) (l : List Byte) : (s.pokeList a l).rdata = s.rdata := rfl
@[simp] theorem State.pokeList_fdata (a : Nat) (l : List Byte) : (s.pokeList a l).fdata = s.fdata := rfl
@[simp] theorem State.pokeList_fstatus (a : Nat) (l : List Byte) : (s.pokeList a l).fstatus = s.fstatus := rfl
@[simp] theorem State.pokeList_notices (a : Nat) (l : List Byte) : (s.pokeList a l).notices = s.notices := rfl
@[simp] theorem State.pokeList_netLog (a : Nat) (l : List Byte) : (s.pokeList a l).netLog = s.netLog := rfl
@[simp] theorem State.pokeList_nextHandle (a : Nat) (l : List Byte) : (s.pokeList a l).nextHandle = s.nextHandle := rfl
@[simp] theorem State.pokeList_freeUsed (a : Nat) (l : List Byte) : (s.pokeList a l).freeUsed = s.freeUsed := rfl
@[simp] theorem State.pokeList_cfg (a : Nat) (l : List Byte) : (s.pokeList a l).cfg = s.cfg := rfl
@[simp] theorem State.pokeList_sock (a : Nat) (l : List Byte) (m : SockId) : (s.pokeList a l).sock m = s.sock m := rfl

/-! ## setSock -/

@[simp] theorem State.setSock_mem (n : SockId) (k : Sock) : (s.setSock n k).mem = s.mem := rfl
@[simp] theorem State.setSock_dhcp (n : SockId) (k : Sock) : (s.setSock n k).dhcp = s.dhcp := rfl
@[simp] theorem State.setSock_pings (n : SockId) (k : Sock) : (s.setSock n k).pings = s.pings := rfl
@[simp] theorem State.setSock_prov (n : SockId) (k : Sock) : (s.setSock n k).prov = s.prov := rfl
@[simp] theorem State.setSock_released (n : SockId) (k : Sock) : (s.setSock n k).released = s.released := rfl
@[simp] theorem State.setSock_alive (n : SockId) (k : Sock) : (s.setSock n k).alive = s.alive := rfl
@[simp] theorem State.setSock_fa (n : SockId) (k : Sock) : (s.setSock n k).fa = s.fa := rfl
@[simp] theorem State.setSock_seed (n : SockId) (k : Sock) : (s.setSock n k).seed = s.seed := rfl
@[simp] theorem State.setSock_now (n : SockId) (k : Sock) : (s.setSock n k).now = s.now := rfl
@[simp] theorem State.setSock_seedIn (n : SockId) (k : Sock) : (s.setSock n k).seedIn = s.seedIn := rfl
@[simp] theorem State.setSock_linkIn (n : SockId) (k : Sock) : (s.setSock n k).linkIn = s.linkIn := rfl
@[simp] theorem State.setSock_portIn (n : SockId) (k : Sock) : (s.setSock n k).portIn = s.portIn := rfl
@[simp] theorem State.setSock_inputs (n : SockId) (k : Sock) : (s.setSock n k).inputs = s.inputs := rfl
@[simp] theorem State.setSock_rdata (n : SockId) (k : Sock) : (s.setSock n k).rdata = s.rdata := rfl
@[simp] theorem State.setSock_fdata (n : SockId) (k : Sock) : (s.setSock n k).fdata = s.fdata := rfl
@[simp] theorem State.setSock_fstatus (n : SockId) (k : Sock) : (s.setSock n k).fstatus = s.fstatus := rfl
@[simp] theorem State.setSock_notices (n : SockId) (k : Sock) : (s.setSock n k).notices = s.notices := rfl
@[simp] theorem State.setSock_netLog (n : SockId) (k : Sock) : (s.setSock n k).netLog = s.netLog := rfl
@[simp] theorem State.setSock_nextHandle (n : SockId) (k : Sock) : (s.setSock n k).nextHandle = s.nextHandle := rfl
@[simp] theorem State.setSock_freeUsed (n : SockId) (k : Sock) : (s.setSock n k).freeUsed = s.freeUsed := rfl
@[simp] theorem State.setSock_cfg (n : SockId) (k : Sock) : (s.setSock n k).cfg = s.cfg := rfl
@[simp] theorem State.setSock_load (n : SockId) (k : Sock) (c : Nat) : (s.setSock n k).load c = s.load c := rfl

/-! ## setCr -/

@[simp] theorem State.setCr_socks (n : SockId) (v : Byte) : (s.setCr n v).socks = s.socks := rfl
@[simp] theorem State.setCr_dhcp (n : SockId) (v : Byte) : (s.setCr n v).dhcp = s.dhcp := rfl
@[simp] theorem State.setCr_pings (n : SockId) (v : Byte) : (s.setCr n v).pings = s.pings := rfl
@[simp] theorem State.setCr_prov (n : SockId) (v : Byte) : (s.setCr n v).prov = s.prov := rfl
@[simp] theorem State.setCr_released (n : SockId) (v : Byte) : (s.setCr n v).released = s.released := rfl
@[simp] theorem State.setCr_alive (n : SockId) (v : Byte) : (s.setCr n v).alive = s.alive := rfl
@[simp] theorem State.setCr_fa (n : SockId) (v : Byte) : (s.setCr n v).fa = s.fa := rfl
@[simp] theorem State.setCr_seed (n : SockId) (v : Byte) : (s.setCr n v).seed = s.seed := rfl
@[simp] theorem State.setCr_now (n : SockId) (v : Byte) : (s.setCr n v).now = s.now := rfl
@[simp] theorem State.setCr_seedIn (n : SockId) (v : Byte) : (s.setCr n v).seedIn = s.seedIn := rfl
@[simp] theorem State.setCr_linkIn (n : SockId) (v : Byte) : (s.setCr n v).linkIn = s.linkIn := rfl
@[simp] theorem State.setCr_portIn (n : SockId) (v : Byte) : (s.setCr n v).portIn = s.portIn := rfl
@[simp] theorem State.setCr_inputs (n : SockId) (v : Byte) : (s.setCr n v).inputs = s.inputs := rfl
@[simp] theorem State.setCr_rdata (n : SockId) (v : Byte) : (s.setCr n v).rdata = s.rdata := rfl
@[simp] theorem State.setCr_fdata (n : SockId) (v : Byte) : (s.setCr n v).fdata = s.fdata := rfl
@[simp] theorem State.setCr_fstatus (n : SockId) (v : Byte) : (s.setCr n v).fstatus = s.fstatus := rfl
@[simp] theorem State.setCr_notices (n : SockId) (v : Byte) : (s.setCr n v).notices = s.notices := rfl
@[simp] theorem State.setCr_netLog (n : SockId) (v : Byte) : (s.setCr n v).netLog = s.netLog := rfl
@[simp] theorem State.setCr_nextHandle (n : SockId) (v : Byte) : (s.setCr n v).nextHandle = s.nextHandle := rfl
@[simp] theorem State.setCr_freeUsed (n : SockId) (v : Byte) : (s.setCr n v).freeUsed = s.freeUsed := rfl
@[simp] theorem State.setCr_cfg (n : SockId) (v : Byte) : (s.setCr n v).cfg = s.cfg := rfl
@[simp] theorem State.setCr_sock (n : SockId) (v : Byte) (m : SockId) : (s.setCr n v).sock m = s.sock m := rfl

/-! ## setOp -/

@[simp] theorem State.setOp_mem (n : SockId) (o : CtlOp) : (s.setOp n o).mem = s.mem := rfl
@[simp] theorem State.setOp_dhcp (n : SockId) (o : CtlOp) : (s.setOp n o).dhcp = s.dhcp := rfl
@[simp] theorem State.setOp_pings (n : SockId) (o : CtlOp) : (s.setOp n o).pings = s.pings := rfl
@[simp] theorem State.setOp_prov (n : SockId) (o : CtlOp) : (s.setOp n o).prov = s.prov := rfl
@[simp] theorem State.setOp_released (n : SockId) (o : CtlOp) : (s.setOp n o).released = s.released := rfl
@[simp] theorem State.setOp_alive (n : SockId) (o : CtlOp) : (s.setOp n o).alive = s.alive := rfl
@[simp] theorem State.setOp_fa (n : SockId) (o : CtlOp) : (s.setOp n o).fa = s.fa := rfl
@[simp] theorem State.setOp_seed (n : SockId) (o : CtlOp) : (s.setOp n o).seed = s.seed := rfl
@[simp] theorem State.setOp_now (n : SockId) (o : CtlOp) : (s.setOp n o).now = s.now := rfl
@[simp] theorem State.setOp_seedIn (n : SockId) (o : CtlOp) : (s.setOp n o).seedIn = s.seedIn := rfl
@[simp] theorem State.setOp_linkIn (n : SockId) (o : CtlOp) : (s.setOp n o).linkIn = s.linkIn := rfl
@[simp] theorem State.setOp_portIn (n : SockId) (o : CtlOp) : (s.setOp n o).portIn = s.portIn := rfl
@[simp] theorem State.setOp_inputs (n : SockId) (o : CtlOp) : (s.setOp n o).inputs = s.inputs := rfl
@[simp] theorem State.setOp_rdata (n : SockId) (o : CtlOp) : (s.setOp n o).rdata = s.rdata := rfl
@[simp] theorem State.setOp_fdata (n : SockId) (o : CtlOp) : (s.setOp n o).fdata = s.fdata := rfl
@[simp] theorem State.setOp_fstatus (n : SockId) (o : CtlOp) : (s.setOp n o).fstatus = s.fstatus := rfl
@[simp] theorem State.setOp_notices (n : SockId) (o : CtlOp) : (s.setOp n o).notices = s.notices := rfl
@[simp] theorem State.setOp_netLog (n : SockId) (o : CtlOp) : (s.setOp n o).netLog = s.netLog := rfl
@[simp] theorem State.setOp_nextHandle (n : SockId) (o : CtlOp) : (s.setOp n o).nextHandle = s.nextHandle := rfl
@[simp] theorem State.setOp_freeUsed (n : SockId) (o : CtlOp) : (s.setOp n o).freeUsed = s.freeUsed := rfl
@[simp] theorem State.setOp_cfg (n : SockId) (o : CtlOp) : (s.setOp n o).cfg = s.cfg := rfl
@[simp] theorem State.setOp_load (n : SockId) (o : CtlOp) (c : Nat) : (s.setOp n o).load c = s.load c := rfl

/-! ## setStatus -/

@[simp] theorem State.setStatus_mem (n : SockId) (x : Status) : (s.setStatus n x).mem = s.mem := rfl
@[simp] theorem State.setStatus_dhcp (n : SockId) (x : Status) : (s.setStatus n x).dhcp = s.dhcp := rfl
@[simp] theorem State.setStatus_pings (n : SockId) (x : Status) : (s.setStatus n x).pings = s.pings := rfl
@[simp] theorem State.setStatus_prov (n : SockId) (x : Status) : (s.setStatus n x).prov = s.prov := rfl
@[simp] theorem State.setStatus_released (n : SockId) (x : Status) : (s.setStatus n x).released = s.released := rfl
@[simp] theorem State.setStatus_alive (n : SockId) (x : Status) : (s.setStatus n x).alive = s.alive := rfl
@[simp] theorem State.setStatus_fa (n : SockId) (x : Status) : (s.setStatus n x).fa = s.fa := rfl
@[simp] theorem State.setStatus_seed (n : SockId) (x : Status) : (s.setStatus n x).seed = s.seed := rfl
@[simp] theorem State.setStatus_now (n : SockId) (x : Status) : (s.setStatus n x).now = s.now := rfl
@[simp] theorem State.setStatus_seedIn (n : SockId) (x : Status) : (s.setStatus n x).seedIn = s.seedIn := rfl
@[simp] theorem State.setStatus_linkIn (n : SockId) (x : Status) : (s.setStatus n x).linkIn = s.linkIn := rfl
@[simp] theorem State.setStatus_portIn (n : SockId) (x : Status) : (s.setStatus n x).portIn = s.portIn := rfl
@[simp] theorem State.setStatus_inputs (n : SockId) (x : Status) : (s.setStatus n x).inputs = s.inputs := rfl
@[simp] theorem State.setStatus_rdata (n : SockId) (x : Status) : (s.setStatus n x).rdata = s.rdata := rfl
@[simp] theorem State.setStatus_fdata (n : SockId) (x : Status) : (s.setStatus n x).fdata = s.fdata := rfl
@[simp] theorem State.setStatus_fstatus (n : SockId) (x : Status) : (s.setStatus n x).fstatus = s.fstatus := rfl
@[simp] theorem State.setStatus_notices (n : SockId) (x : Status) : (s.setStatus n x).notices = s.notices := rfl
@[simp] theorem State.setStatus_netLog (n : SockId) (x : Status) : (s.setStatus n x).netLog = s.netLog := rfl
@[simp] theorem State.setStatus_nextHandle (n : SockId) (x : Status) : (s.setStatus n x).nextHandle = s.nextHandle := rfl
@[simp] theorem State.setStatus_freeUsed (n : SockId) (x : Status) : (s.setStatus n x).freeUsed = s.freeUsed := rfl
@[simp] theorem State.setStatus_cfg (n : SockId) (x : Status) : (s.setStatus n x).cfg = s.cfg := rfl
@[simp] theorem State.setStatus_load (n : SockId) (x : Status) (c : Nat) : (s.setStatus n x).load c = s.load c := rfl

/-! ## finishOp -/

@[simp] theorem State.finishOp_dhcp (n : SockId) : (s.finishOp n).dhcp = s.dhcp := rfl
@[simp] theorem State.finishOp_pings (n : SockId) : (s.finishOp n).pings = s.pings := rfl
@[simp] theorem State.finishOp_prov (n : SockId) : (s.finishOp n).prov = s.prov := rfl
@[simp] theorem State.finishOp_released (n : SockId) : (s.finishOp n).released = s.released := rfl
@[simp] theorem State.finishOp_alive (n : SockId) : (s.finishOp n).alive = s.alive := rfl
@[simp] theorem State.finishOp_fa (n : SockId) : (s.finishOp n).fa = s.fa := rfl
@[simp] theorem State.finishOp_seed (n : SockId) : (s.finishOp n).seed = s.seed := rfl
@[simp] theorem State.finishOp_now (n : SockId) : (s.finishOp n).now = s.now := rfl
@[simp] theorem State.finishOp_seedIn (n : SockId) : (s.finishOp n).seedIn = s.seedIn := rfl
@[simp] theorem State.finishOp_linkIn (n : SockId) : (s.finishOp n).linkIn = s.linkIn := rfl
@[simp] theorem State.finishOp_portIn (n : SockId) : (s.finishOp n).portIn = s.portIn := rfl
@[simp] theorem State.finishOp_inputs (n : SockId) : (s.finishOp n).inputs = s.inputs := rfl
@[simp] theorem State.finishOp_rdata (n : SockId) : (s.finishOp n).rdata = s.rdata := rfl
@[simp] theorem State.finishOp_fdata (n : SockId) : (s.finishOp n).fdata = s.fdata := rfl
@[simp] theorem State.finishOp_fstatus (n : SockId) : (s.finishOp n).fstatus = s.fstatus := rfl
@[simp] theorem State.finishOp_notices (n : SockId) : (s.finishOp n).notices = s.notices := rfl
@[simp] theorem State.finishOp_netLog (n : SockId) : (s.finishOp n).netLog = s.netLog := rfl
@[simp] theorem State.finishOp_nextHandle (n : SockId) : (s.finishOp n).nextHandle = s.nextHandle := rfl
@[simp] theorem State.finishOp_freeUsed (n : SockId) : (s.finishOp n).freeUsed = s.freeUsed := rfl
@[simp] theorem State.finishOp_cfg (n : SockId) : (s.finishOp n).cfg = s.cfg := rfl

/-! ## raiseInt -/

@[simp] theorem State.raiseInt_mem (n : SockId) (b : Byte) : (s.raiseInt n b).mem = s.mem := rfl
@[simp] theorem State.raiseInt_dhcp (n : SockId) (b : Byte) : (s.raiseInt n b).dhcp = s.dhcp := rfl
@[simp] theorem State.raiseInt_pings (n : SockId) (b : Byte) : (s.raiseInt n b).pings = s.pings := rfl
@[simp] theorem State.raiseInt_prov (n : SockId) (b : Byte) : (s.raiseInt n b).prov = s.prov := rfl
@[simp] theorem State.raiseInt_released (n : SockId) (b : Byte) : (s.raiseInt n b).released = s.released := rfl
@[simp] theorem State.raiseInt_alive (n : SockId) (b : Byte) : (s.raiseInt n b).alive = s.alive := rfl
@[simp] theorem State.raiseInt_fa (n : SockId) (b : Byte) : (s.raiseInt n b).fa = s.fa := rfl
@[simp] theorem State.raiseInt_seed (n : SockId) (b : Byte) : (s.raiseInt n b).seed = s.seed := rfl
@[simp] theorem State.raiseInt_now (n : SockId) (b : Byte) : (s.raiseInt n b).now = s.now := rfl
@[simp] theorem State.raiseInt_seedIn (n : SockId) (b : Byte) : (s.raiseInt n b).seedIn = s.seedIn := rfl
@[simp] theorem State.raiseInt_linkIn (n : SockId) (b : Byte) : (s.raiseInt n b).linkIn = s.linkIn := rfl
@[simp] theorem State.raiseInt_portIn (n : SockId) (b : Byte) : (s.raiseInt n b).portIn = s.portIn := rfl
@[simp] theorem State.raiseInt_inputs (n : SockId) (b : Byte) : (s.raiseInt n b).inputs = s.inputs := rfl
@[simp] theorem State.raiseInt_rdata (n : SockId) (b : Byte) : (s.raiseInt n b).rdata = s.rdata := rfl
@[simp] theorem State.raiseInt_fdata (n : SockId) (b : Byte) : (s.raiseInt n b).fdata = s.fdata := rfl
@[simp] theorem State.raiseInt_fstatus (n : SockId) (b : Byte) : (s.raiseInt n b).fstatus = s.fstatus := rfl
@[simp] theorem State.raiseInt_notices (n : SockId) (b : Byte) : (s.raiseInt n b).notices = s.notices := rfl
@[simp] theorem State.raiseInt_netLog (n : SockId) (b : Byte) : (s.raiseInt n b).netLog = s.netLog := rfl
@[simp] theorem State.raiseInt_nextHandle (n : SockId) (b : Byte) : (s.raiseInt n b).nextHandle = s.nextHandle := rfl
@[simp] theorem State.raiseInt_freeUsed (n : SockId) (b : Byte) : (s.raiseInt n b).freeUsed = s.freeUsed := rfl
@[simp] theorem State.raiseInt_cfg (n : SockId) (b : Byte) : (s.raiseInt n b).cfg = s.cfg := rfl
@[simp] theorem State.raiseInt_load (n : SockId) (b : Byte) (c : Nat) : (s.raiseInt n b).load c = s.load c := rfl

/-! ## ackInt -/

@[simp] theorem State.ackInt_mem (n : SockId) (v : Byte) : (s.ackInt n v).mem = s.mem := rfl
@[simp] theorem State.ackInt_dhcp (n : SockId) (v : Byte) : (s.ackInt n v).dhcp = s.dhcp := rfl
@[simp] theorem State.ackInt_pings (n : SockId) (v : Byte) : (s.ackInt n v).pings = s.pings := rfl
@[simp] theorem State.ackInt_prov (n : SockId) (v : Byte) : (s.ackInt n v).prov = s.prov := rfl
@[simp] theorem State.ackInt_released (n : SockId) (v : Byte) : (s.ackInt n v).released = s.released := rfl
@[simp] theorem State.ackInt_alive (n : SockId) (v : Byte) : (s.ackInt n v).alive = s.alive := rfl
@[simp] theorem State.ackInt_fa (n : SockId) (v : Byte) : (s.ackInt n v).fa = s.fa := rfl
@[simp] theorem State.ackInt_seed (n : SockId) (v : Byte) : (s.ackInt n v).seed = s.seed := rfl
@[simp] theorem State.ackInt_now (n : SockId) (v : Byte) : (s.ackInt n v).now = s.now := rfl
@[simp] theorem State.ackInt_seedIn (n : SockId) (v : Byte) : (s.ackInt n v).seedIn = s.seedIn := rfl
@[simp] theorem State.ackInt_linkIn (n : SockId) (v : Byte) : (s.ackInt n v).linkIn = s.linkIn := rfl
@[simp] theorem State.ackInt_portIn (n : SockId) (v : Byte) : (s.ackInt n v).portIn = s.portIn := rfl
@[simp] theorem State.ackInt_inputs (n : SockId) (v : Byte) : (s.ackInt n v).inputs = s.inputs := rfl
@[simp] theorem State.ackInt_rdata (n : SockId) (v : Byte) : (s.ackInt n v).rdata = s.rdata := rfl
@[simp] theorem State.ackInt_fdata (n : SockId) (v : Byte) : (s.ackInt n v).fdata = s.fdata := rfl
@[simp] theorem State.ackInt_fstatus (n : SockId) (v : Byte) : (s.ackInt n v).fstatus = s.fstatus := rfl
@[simp] theorem State.ackInt_notices (n : SockId) (v : Byte) : (s.ackInt n v).notices = s.notices := rfl
@[simp] theorem State.ackInt_netLog (n : SockId) (v : Byte) : (s.ackInt n v).netLog = s.netLog := rfl
@[simp] theorem State.ackInt_nextHandle (n : SockId) (v : Byte) : (s.ackInt n v).nextHandle = s.nextHandle := rfl
@[simp] theorem State.ackInt_freeUsed (n : SockId) (v : Byte) : (s.ackInt n v).freeUsed = s.freeUsed := rfl
@[simp] theorem State.ackInt_cfg (n : SockId) (v : Byte) : (s.ackInt n v).cfg = s.cfg := rfl
@[simp] theorem State.ackInt_load (n : SockId) (v : Byte) (c : Nat) : (s.ackInt n v).load c = s.load c := rfl

/-! ## pulseNotice -/

@[simp] theorem State.pulseNotice_mem : (s.pulseNotice).mem = s.mem := rfl
@[simp] theorem State.pulseNotice_socks : (s.pulseNotice).socks = s.socks := rfl
@[simp] theorem State.pulseNotice_dhcp : (s.pulseNotice).dhcp = s.dhcp := rfl
@[simp] theorem State.pulseNotice_pings : (s.pulseNotice).pings = s.pings := rfl
@[simp] theorem State.pulseNotice_prov : (s.pulseNotice).prov = s.prov := rfl
@[simp] theorem State.pulseNotice_released : (s.pulseNotice).released = s.released := rfl
@[simp] theorem State.pulseNotice_alive : (s.pulseNotice).alive = s.alive := rfl
@[simp] theorem State.pulseNotice_fa : (s.pulseNotice).fa = s.fa := rfl
@[simp] theorem State.pulseNotice_seed : (s.pulseNotice).seed = s.seed := rfl
@[simp] theorem State.pulseNotice_now : (s.pulseNotice).now = s.now := rfl
@[simp] theorem State.pulseNotice_seedIn : (s.pulseNotice).seedIn = s.seedIn := rfl
@[simp] theorem State.pulseNotice_linkIn : (s.pulseNotice).linkIn = s.linkIn := rfl
@[simp] theorem State.pulseNotice_portIn : (s.pulseNotice).portIn = s.portIn := rfl
@[simp] theorem State.pulseNotice_inputs : (s.pulseNotice).inputs = s.inputs := rfl
@[simp] theorem State.pulseNotice_rdata : (s.pulseNotice).rdata = s.rdata := rfl
@[simp] theorem State.pulseNotice_fdata : (s.pulseNotice).fdata = s.fdata := rfl
@[simp] theorem State.pulseNotice_fstatus : (s.pulseNotice).fstatus = s.fstatus := rfl
@[simp] theorem State.pulseNotice_netLog : (s.pulseNotice).netLog = s.netLog := rfl
@[simp] theorem State.pulseNotice_nextHandle : (s.pulseNotice).nextHandle = s.nextHandle := rfl
@[simp] theorem State.pulseNotice_freeUsed : (s.pulseNotice).freeUsed = s.freeUsed := rfl
@[simp] theorem State.pulseNotice_cfg : (s.pulseNotice).cfg = s.cfg := rfl
@[simp] theorem State.pulseNotice_sock (m : SockId) : (s.pulseNotice).sock m = s.sock m := rfl
@[simp] theorem State.pulseNotice_load (c : Nat) : (s.pulseNotice).load c = s.load c := rfl

/-! ## ask -/

@[simp] theorem State.ask_mem (r : NetReq) : (s.ask r).mem = s.mem := rfl
@[simp] theorem State.ask_socks (r : NetReq) : (s.ask r).socks = s.socks := rfl
@[simp] theorem State.ask_dhcp (r : NetReq) : (s.ask r).dhcp = s.dhcp := rfl
@[simp] theorem State.ask_pings (r : NetReq) : (s.ask r).pings = s.pings := rfl
@[simp] theorem State.ask_prov (r : NetReq) : (s.ask r).prov = s.prov := rfl
@[simp] theorem State.ask_released (r : NetReq) : (s.ask r).released = s.released := rfl
@[simp] theorem State.ask_alive (r : NetReq) : (s.ask r).alive = s.alive := rfl
@[simp] theorem State.ask_fa (r : NetReq) : (s.ask r).fa = s.fa := rfl
@[simp] theorem State.ask_seed (r : NetReq) : (s.ask r).seed = s.seed := rfl
@[simp] theorem State.ask_now (r : NetReq) : (s.ask r).now = s.now := rfl
@[simp] theorem State.ask_seedIn (r : NetReq) : (s.ask r).seedIn = s.seedIn := rfl
@[simp] theorem State.ask_linkIn (r : NetReq) : (s.ask r).linkIn = s.linkIn := rfl
@[simp] theorem State.ask_portIn (r : NetReq) : (s.ask r).portIn = s.portIn := rfl
@[simp] theorem State.ask_inputs (r : NetReq) : (s.ask r).inputs = s.inputs := rfl
@[simp] theorem State.ask_rdata (r : NetReq) : (s.ask r).rdata = s.rdata := rfl
@[simp] theorem State.ask_fdata (r : NetReq) : (s.ask r).fdata = s.fdata := rfl
@[simp] theorem State.ask_fstatus (r : NetReq) : (s.ask r).fstatus = s.fstatus := rfl
@[simp] theorem State.ask_notices (r : NetReq) : (s.ask r).notices = s.notices := rfl
@[simp] theorem State.ask_nextHandle (r : NetReq) : (s.ask r).nextHandle = s.nextHandle := rfl
@[simp] theorem State.ask_freeUsed (r : NetReq) : (s.ask r).freeUsed = s.freeUsed := rfl
@[simp] theorem State.ask_cfg (r : NetReq) : (s.ask r).cfg = s.cfg := rfl
@[simp] theorem State.ask_sock (r : NetReq) (m : SockId) : (s.ask r).sock m = s.sock m := rfl
@[simp] theorem State.ask_load (r : NetReq) (c : Nat) : (s.ask r).load c = s.load c := rfl

/-! ## takeHandle -/

@[simp] theorem State.takeHandle_mem : (s.takeHandle).mem = s.mem := rfl
@[simp] theorem State.takeHandle_socks : (s.takeHandle).socks = s.socks := rfl
@[simp] theorem State.takeHandle_dhcp : (s.takeHandle).dhcp = s.dhcp := rfl
@[simp] theorem State.takeHandle_pings : (s.takeHandle).pings = s.pings := rfl
@[simp] theorem State.takeHandle_prov : (s.takeHandle).prov = s.prov := rfl
@[simp] theorem State.takeHandle_released : (s.takeHandle).released = s.released := rfl
@[simp] theorem State.takeHandle_alive : (s.takeHandle).alive = s.alive := rfl
@[simp] theorem State.takeHandle_fa : (s.takeHandle).fa = s.fa := rfl
@[simp] theorem State.takeHandle_seed : (s.takeHandle).seed = s.seed := rfl
@[simp] theorem State.takeHandle_now : (s.takeHandle).now = s.now := rfl
@[simp] theorem State.takeHandle_seedIn : (s.takeHandle).seedIn = s.seedIn := rfl
@[simp] theorem State.takeHandle_linkIn : (s.takeHandle).linkIn = s.linkIn := rfl
@[simp] theorem State.takeHandle_portIn : (s.takeHandle).portIn = s.portIn := rfl
@[simp] theorem State.takeHandle_inputs : (s.takeHandle).inputs = s.inputs := rfl
@[simp] theorem State.takeHandle_rdata : (s.takeHandle).rdata = s.rdata := rfl
@[simp] theorem State.takeHandle_fdata : (s.takeHandle).fdata = s.fdata := rfl
@[simp] theorem State.takeHandle_fstatus : (s.takeHandle).fstatus = s.fstatus := rfl
@[simp] theorem State.takeHandle_notices : (s.takeHandle).notices = s.notices := rfl
@[simp] theorem State.takeHandle_netLog : (s.takeHandle).netLog = s.netLog := rfl
@[simp] theorem State.takeHandle_freeUsed : (s.takeHandle).freeUsed = s.freeUsed := rfl
@[simp] theorem State.takeHandle_cfg : (s.takeHandle).cfg = s.cfg := rfl
@[simp] theorem State.takeHandle_sock (m : SockId) : (s.takeHandle).sock m = s.sock m := rfl
@[simp] theorem State.takeHandle_load (c : Nat) : (s.takeHandle).load c = s.load c := rfl

/-! ## closeHandle -/

@[simp] theorem State.closeHandle_mem (h : Option Handle) : (s.closeHandle h).mem = s.mem := by cases h <;> rfl
@[simp] theorem State.closeHandle_socks (h : Option Handle) : (s.closeHandle h).socks = s.socks := by cases h <;> rfl
@[simp] theorem State.closeHandle_dhcp (h : Option Handle) : (s.closeHandle h).dhcp = s.dhcp := by cases h <;> rfl
@[simp] theorem State.closeHandle_pings (h : Option Handle) : (s.closeHandle h).pings = s.pings := by cases h <;> rfl
@[simp] theorem State.closeHandle_prov (h : Option Handle) : (s.closeHandle h).prov = s.prov := by cases h <;> rfl
@[simp] theorem State.closeHandle_released (h : Option Handle) : (s.closeHandle h).released = s.released := by cases h <;> rfl
@[simp] theorem State.closeHandle_alive (h : Option Handle) : (s.closeHandle h).alive = s.alive := by cases h <;> rfl
@[simp] theorem State.closeHandle_fa (h : Option Handle) : (s.closeHandle h).fa = s.fa := by cases h <;> rfl
@[simp] theorem State.closeHandle_seed (h : Option Handle) : (s.closeHandle h).seed = s.seed := by cases h <;> rfl
@[simp] theorem State.closeHandle_now (h : Option Handle) : (s.closeHandle h).now = s.now := by cases h <;> rfl
@[simp] theorem State.closeHandle_seedIn (h : Option Handle) : (s.closeHandle h).seedIn = s.seedIn := by cases h <;> rfl
@[simp] theorem State.closeHandle_linkIn (h : Option Handle) : (s.closeHandle h).linkIn = s.linkIn := by cases h <;> rfl
@[simp] theorem State.closeHandle_portIn (h : Option Handle) : (s.closeHandle h).portIn = s.portIn := by cases h <;> rfl
@[simp] theorem State.closeHandle_inputs (h : Option Handle) : (s.closeHandle h).inputs = s.inputs := by cases h <;> rfl
@[simp] theorem State.closeHandle_rdata (h : Option Handle) : (s.closeHandle h).rdata = s.rdata := by cases h <;> rfl
@[simp] theorem State.closeHandle_fdata (h : Option Handle) : (s.closeHandle h).fdata = s.fdata := by cases h <;> rfl
@[simp] theorem State.closeHandle_fstatus (h : Option Handle) : (s.closeHandle h).fstatus = s.fstatus := by cases h <;> rfl
@[simp] theorem State.closeHandle_notices (h : Option Handle) : (s.closeHandle h).notices = s.notices := by cases h <;> rfl
@[simp] theorem State.closeHandle_nextHandle (h : Option Handle) : (s.closeHandle h).nextHandle = s.nextHandle := by cases h <;> rfl
@[simp] theorem State.closeHandle_freeUsed (h : Option Handle) : (s.closeHandle h).freeUsed = s.freeUsed := by cases h <;> rfl
@[simp] theorem State.closeHandle_cfg (h : Option Handle) : (s.closeHandle h).cfg = s.cfg := by cases h <;> rfl
@[simp] theorem State.closeHandle_sock (h : Option Handle) (m : SockId) : (s.closeHandle h).sock m = s.sock m := by simp [State.sock]
@[simp] theorem State.closeHandle_load (h : Option Handle) (c : Nat) : (s.closeHandle h).load c = s.load c := by simp [State.load]

/-! ## closeHandles -/

@[simp] theorem State.closeHandles_mem (n : SockId) : (s.closeHandles n).mem = s.mem := by simp [State.closeHandles]
@[simp] theorem State.closeHandles_dhcp (n : SockId) : (s.closeHandles n).dhcp = s.dhcp := by simp [State.closeHandles]
@[simp] theorem State.closeHandles_pings (n : SockId) : (s.closeHandles n).pings = s.pings := by simp [State.closeHandles]
@[simp] theorem State.closeHandles_prov (n : SockId) : (s.closeHandles n).prov = s.prov := by simp [State.closeHandles]
@[simp] theorem State.closeHandles_released (n : SockId) : (s.closeHandles n).released = s.released := by simp [State.closeHandles]
@[simp] theorem State.closeHandles_alive (n : SockId) : (s.closeHandles n).alive = s.alive := by simp [State.closeHandles]
@[simp] theorem State.closeHandles_fa (n : SockId) : (s.closeHandles n).fa = s.fa := by simp [State.closeHandles]
@[simp] theorem State.closeHandles_seed (n : SockId) : (s.closeHandles n).seed = s.seed := by simp [State.closeHandles]
@[simp] theorem State.closeHandles_now (n : SockId) : (s.closeHandles n).now = s.now := by simp [State.closeHandles]
@[simp] theorem State.closeHandles_seedIn (n : SockId) : (s.closeHandles n).seedIn = s.seedIn := by simp [State.closeHandles]
@[simp] theorem State.closeHandles_linkIn (n : SockId) : (s.closeHandles n).linkIn = s.linkIn := by simp [State.closeHandles]
@[simp] theorem State.closeHandles_portIn (n : SockId) : (s.closeHandles n).portIn = s.portIn := by simp [State.closeHandles]
@[simp] theorem State.closeHandles_inputs (n : SockId) : (s.closeHandles n).inputs = s.inputs := by simp [State.closeHandles]
@[simp] theorem State.closeHandles_rdata (n : SockId) : (s.closeHandles n).rdata = s.rdata := by simp [State.closeHandles]
@[simp] theorem State.closeHandles_fdata (n : SockId) : (s.closeHandles n).fdata = s.fdata := by simp [State.closeHandles]
@[simp] theorem State.closeHandles_fstatus (n : SockId) : (s.closeHandles n).fstatus = s.fstatus := by simp [State.closeHandles]
@[simp] theorem State.closeHandles_notices (n : SockId) : (s.closeHandles n).notices = s.notices := by simp [State.closeHandles]
@[simp] theorem State.closeHandles_nextHandle (n : SockId) : (s.closeHandles n).nextHandle = s.nextHandle := by simp [State.closeHandles]
@[simp] theorem State.closeHandles_freeUsed (n : SockId) : (s.closeHandles n).freeUsed = s.freeUsed := by simp [State.closeHandles]
@[simp] theorem State.closeHandles_cfg (n : SockId) : (s.closeHandles n).cfg = s.cfg := by simp [State.closeHandles]
@[simp] theorem State.closeHandles_load (n : SockId) (c : Nat) : (s.closeHandles n).load c = s.load c := by simp [State.load]

/-! ## dropConn -/

@[simp] theorem State.dropConn_mem (n : SockId) : (s.dropConn n).mem = s.mem := by simp [State.dropConn]
@[simp] theorem State.dropConn_dhcp (n : SockId) : (s.dropConn n).dhcp = s.dhcp := by simp [State.dropConn]
@[simp] theorem State.dropConn_pings (n : SockId) : (s.dropConn n).pings = s.pings := by simp [State.dropConn]
@[simp] theorem State.dropConn_prov (n : SockId) : (s.dropConn n).prov = s.prov := by simp [State.dropConn]
@[simp] theorem State.dropConn_released (n : SockId) : (s.dropConn n).released = s.released := by simp [State.dropConn]
@[simp] theorem State.dropConn_alive (n : SockId) : (s.dropConn n).alive = s.alive := by simp [State.dropConn]
@[simp] theorem State.dropConn_fa (n : SockId) : (s.dropConn n).fa = s.fa := by simp [State.dropConn]
@[simp] theorem State.dropConn_seed (n : SockId) : (s.dropConn n).seed = s.seed := by simp [State.dropConn]
@[simp] theorem State.dropConn_now (n : SockId) : (s.dropConn n).now = s.now := by simp [State.dropConn]
@[simp] theorem State.dropConn_seedIn (n : SockId) : (s.dropConn n).seedIn = s.seedIn := by simp [State.dropConn]
@[simp] theorem State.dropConn_linkIn (n : SockId) : (s.dropConn n).linkIn = s.linkIn := by simp [State.dropConn]
@[simp] theorem State.dropConn_portIn (n : SockId) : (s.dropConn n).portIn = s.portIn := by simp [State.dropConn]
@[simp] theorem State.dropConn_inputs (n : SockId) : (s.dropConn n).inputs = s.inputs := by simp [State.dropConn]
@[simp] theorem State.dropConn_rdata (n : SockId) : (s.dropConn n).rdata = s.rdata := by simp [State.dropConn]
@[simp] theorem State.dropConn_fdata (n : SockId) : (s.dropConn n).fdata = s.fdata := by simp [State.dropConn]
@[simp] theorem State.dropConn_fstatus (n : SockId) : (s.dropConn n).fstatus = s.fstatus := by simp [State.dropConn]
@[simp] theorem State.dropConn_notices (n : SockId) : (s.dropConn n).notices = s.notices := by simp [State.dropConn]
@[simp] theorem State.dropConn_nextHandle (n : SockId) : (s.dropConn n).nextHandle = s.nextHandle := by simp [State.dropConn]
@[simp] theorem State.dropConn_freeUsed (n : SockId) : (s.dropConn n).freeUsed = s.freeUsed := by simp [State.dropConn]
@[simp] theorem State.dropConn_cfg (n : SockId) : (s.dropConn n).cfg = s.cfg := by simp [State.dropConn]
@[simp] theorem State.dropConn_load (n : SockId) (c : Nat) : (s.dropConn n).load c = s.load c := by simp [State.load]

/-! ## initCursors -/

@[simp] theorem State.initCursors_dhcp (n : SockId) : (s.initCursors n).dhcp = s.dhcp := rfl
@[simp] theorem State.initCursors_pings (n : SockId) : (s.initCursors n).pings = s.pings := rfl
@[simp] theorem State.initCursors_prov (n : SockId) : (s.initCursors n).prov = s.prov := rfl
@[simp] theorem State.initCursors_released (n : SockId) : (s.initCursors n).released = s.released := rfl
@[simp] theorem State.initCursors_alive (n : SockId) : (s.initCursors n).alive = s.alive := rfl
@[simp] theorem State.initCursors_fa (n : SockId) : (s.initCursors n).fa = s.fa := rfl
@[simp] theorem State.initCursors_seed (n : SockId) : (s.initCursors n).seed = s.seed := rfl
@[simp] theorem State.initCursors_now (n : SockId) : (s.initCursors n).now = s.now := rfl
@[simp] theorem State.initCursors_seedIn (n : SockId) : (s.initCursors n).seedIn = s.seedIn := rfl
@[simp] theorem State.initCursors_linkIn (n : SockId) : (s.initCursors n).linkIn = s.linkIn := rfl
@[simp] theorem State.initCursors_portIn (n : SockId) : (s.initCursors n).portIn = s.portIn := rfl
@[simp] theorem State.initCursors_inputs (n : SockId) : (s.initCursors n).inputs = s.inputs := rfl
@[simp] theorem State.initCursors_rdata (n : SockId) : (s.initCursors n).rdata = s.rdata := rfl
@[simp] theorem State.initCursors_fdata (n : SockId) : (s.initCursors n).fdata = s.fdata := rfl
@[simp] theorem State.initCursors_fstatus (n : SockId) : (s.initCursors n).fstatus = s.fstatus := rfl
@[simp] theorem State.initCursors_notices (n : SockId) : (s.initCursors n).notices = s.notices := rfl
@[simp] theorem State.initCursors_netLog (n : SockId) : (s.initCursors n).netLog = s.netLog := rfl
@[simp] theorem State.initCursors_nextHandle (n : SockId) : (s.initCursors n).nextHandle = s.nextHandle := rfl
@[simp] theorem State.initCursors_freeUsed (n : SockId) : (s.initCursors n).freeUsed = s.freeUsed := rfl
@[simp] theorem State.initCursors_cfg (n : SockId) : (s.initCursors n).cfg = s.cfg := rfl

/-! ## rxCommit -/

@[simp] theorem State.rxCommit_dhcp (n : SockId) (l : List Byte) : (s.rxCommit n l).dhcp = s.dhcp := rfl
@[simp] theorem State.rxCommit_pings (n : SockId) (l : List Byte) : (s.rxCommit n l).pings = s.pings := rfl
@[simp] theorem State.rxCommit_prov (n : SockId) (l : List Byte) : (s.rxCommit n l).prov = s.prov := rfl
@[simp] theorem State.rxCommit_released (n : SockId) (l : List Byte) : (s.rxCommit n l).released = s.released := rfl
@[simp] theorem State.rxCommit_alive (n : SockId) (l : List Byte) : (s.rxCommit n l).alive = s.alive := rfl
@[simp] theorem State.rxCommit_fa (n : SockId) (l : List Byte) : (s.rxCommit n l).fa = s.fa := rfl
@[simp] theorem State.rxCommit_seed (n : SockId) (l : List Byte) : (s.rxCommit n l).seed = s.seed := rfl
@[simp] theorem State.rxCommit_now (n : SockId) (l : List Byte) : (s.rxCommit n l).now = s.now := rfl
@[simp] theorem State.rxCommit_seedIn (n : SockId) (l : List Byte) : (s.rxCommit n l).seedIn = s.seedIn := rfl
@[simp] theorem State.rxCommit_linkIn (n : SockId) (l : List Byte) : (s.rxCommit n l).linkIn = s.linkIn := rfl
@[simp] theorem State.rxCommit_portIn (n : SockId) (l : List Byte) : (s.rxCommit n l).portIn = s.portIn := rfl
@[simp] theorem State.rxCommit_inputs (n : SockId) (l : List Byte) : (s.rxCommit n l).inputs = s.inputs := rfl
@[simp] theorem State.rxCommit_rdata (n : SockId) (l : List Byte) : (s.rxCommit n l).rdata = s.rdata := rfl
@[simp] theorem State.rxCommit_fdata (n : SockId) (l : List Byte) : (s.rxCommit n l).fdata = s.fdata := rfl
@[simp] theorem State.rxCommit_fstatus (n : SockId) (l : List Byte) : (s.rxCommit n l).fstatus = s.fstatus := rfl
@[simp] theorem State.rxCommit_notices (n : SockId) (l : List Byte) : (s.rxCommit n l).notices = s.notices := rfl
@[simp] theorem State.rxCommit_netLog (n : SockId) (l : List Byte) : (s.rxCommit n l).netLog = s.netLog := rfl
@[simp] theorem State.rxCommit_nextHandle (n : SockId) (l : List Byte) : (s.rxCommit n l).nextHandle = s.nextHandle := rfl
@[simp] theorem State.rxCommit_freeUsed (n : SockId) (l : List Byte) : (s.rxCommit n l).freeUsed = s.freeUsed := rfl
@[simp] theorem State.rxCommit_cfg (n : SockId) (l : List Byte) : (s.rxCommit n l).cfg = s.cfg := rfl

/-! ## ignoreCommand -/

@[simp] theorem State.ignoreCommand_socks (n : SockId) : (s.ignoreCommand n).socks = s.socks := rfl
@[simp] theorem State.ignoreCommand_dhcp (n : SockId) : (s.ignoreCommand n).dhcp = s.dhcp := rfl
@[simp] theorem State.ignoreCommand_pings (n : SockId) : (s.ignoreCommand n).pings = s.pings := rfl
@[simp] theorem State.ignoreCommand_prov (n : SockId) : (s.ignoreCommand n).prov = s.prov := rfl
@[simp] theorem State.ignoreCommand_released (n : SockId) : (s.ignoreCommand n).released = s.released := rfl
@[simp] theorem State.ignoreCommand_alive (n : SockId) : (s.ignoreCommand n).alive = s.alive := rfl
@[simp] theorem State.ignoreCommand_fa (n : SockId) : (s.ignoreCommand n).fa = s.fa := rfl
@[simp] theorem State.ignoreCommand_seed (n : SockId) : (s.ignoreCommand n).seed = s.seed := rfl
@[simp] theorem State.ignoreCommand_now (n : SockId) : (s.ignoreCommand n).now = s.now := rfl
@[simp] theorem State.ignoreCommand_seedIn (n : SockId) : (s.ignoreCommand n).seedIn = s.seedIn := rfl
@[simp] theorem State.ignoreCommand_linkIn (n : SockId) : (s.ignoreCommand n).linkIn = s.linkIn := rfl
@[simp] theorem State.ignoreCommand_portIn (n : SockId) : (s.ignoreCommand n).portIn = s.portIn := rfl
@[simp] theorem State.ignoreCommand_inputs (n : SockId) : (s.ignoreCommand n).inputs = s.inputs := rfl
@[simp] theorem State.ignoreCommand_rdata (n : SockId) : (s.ignoreCommand n).rdata = s.rdata := rfl
@[simp] theorem State.ignoreCommand_fdata (n : SockId) : (s.ignoreCommand n).fdata = s.fdata := rfl
@[simp] theorem State.ignoreCommand_fstatus (n : SockId) : (s.ignoreCommand n).fstatus = s.fstatus := rfl
@[simp] theorem State.ignoreCommand_notices (n : SockId) : (s.ignoreCommand n).notices = s.notices := rfl
@[simp] theorem State.ignoreCommand_netLog (n : SockId) : (s.ignoreCommand n).netLog = s.netLog := rfl
@[simp] theorem State.ignoreCommand_nextHandle (n : SockId) : (s.ignoreCommand n).nextHandle = s.nextHandle := rfl
@[simp] theorem State.ignoreCommand_freeUsed (n : SockId) : (s.ignoreCommand n).freeUsed = s.freeUsed := rfl
@[simp] theorem State.ignoreCommand_cfg (n : SockId) : (s.ignoreCommand n).cfg = s.cfg := rfl
@[simp] theorem State.ignoreCommand_sock (n : SockId) (m : SockId) : (s.ignoreCommand n).sock m = s.sock m := rfl

/-! ## releaseTx -/

@[simp] theorem State.releaseTx_mem (n : SockId) : (s.releaseTx n).mem = s.mem := rfl
@[simp] theorem State.releaseTx_dhcp (n : SockId) : (s.releaseTx n).dhcp = s.dhcp := rfl
@[simp] theorem State.releaseTx_pings (n : SockId) : (s.releaseTx n).pings = s.pings := rfl
@[simp] theorem State.releaseTx_prov (n : SockId) : (s.releaseTx n).prov = s.prov := rfl
@[simp] theorem State.releaseTx_released (n : SockId) : (s.releaseTx n).released = s.released := rfl
@[simp] theorem State.releaseTx_alive (n : SockId) : (s.releaseTx n).alive = s.alive := rfl
@[simp] theorem State.releaseTx_fa (n : SockId) : (s.releaseTx n).fa = s.fa := rfl
@[simp] theorem State.releaseTx_seed (n : SockId) : (s.releaseTx n).seed = s.seed := rfl
@[simp] theorem State.releaseTx_now (n : SockId) : (s.releaseTx n).now = s.now := rfl
@[simp] theorem State.releaseTx_seedIn (n : SockId) : (s.releaseTx n).seedIn = s.seedIn := rfl
@[simp] theorem State.releaseTx_linkIn (n : SockId) : (s.releaseTx n).linkIn = s.linkIn := rfl
@[simp] theorem State.releaseTx_portIn (n : SockId) : (s.releaseTx n).portIn = s.portIn := rfl
@[simp] theorem State.releaseTx_inputs (n : SockId) : (s.releaseTx n).inputs = s.inputs := rfl
@[simp] theorem State.releaseTx_rdata (n : SockId) : (s.releaseTx n).rdata = s.rdata := rfl
@[simp] theorem State.releaseTx_fdata (n : SockId) : (s.releaseTx n).fdata = s.fdata := rfl
@[simp] theorem State.releaseTx_fstatus (n : SockId) : (s.releaseTx n).fstatus = s.fstatus := rfl
@[simp] theorem State.releaseTx_notices (n : SockId) : (s.releaseTx n).notices = s.notices := rfl
@[simp] theorem State.releaseTx_netLog (n : SockId) : (s.releaseTx n).netLog = s.netLog := rfl
@[simp] theorem State.releaseTx_nextHandle (n : SockId) : (s.releaseTx n).nextHandle = s.nextHandle := rfl
@[simp] theorem State.releaseTx_freeUsed (n : SockId) : (s.releaseTx n).freeUsed = s.freeUsed := rfl
@[simp] theorem State.releaseTx_cfg (n : SockId) : (s.releaseTx n).cfg = s.cfg := rfl
@[simp] theorem State.releaseTx_load (n : SockId) (c : Nat) : (s.releaseTx n).load c = s.load c := rfl

/-! ## attach -/

@[simp] theorem State.attach_mem (n : SockId) : (s.attach n).mem = s.mem := rfl
@[simp] theorem State.attach_dhcp (n : SockId) : (s.attach n).dhcp = s.dhcp := rfl
@[simp] theorem State.attach_pings (n : SockId) : (s.attach n).pings = s.pings := rfl
@[simp] theorem State.attach_prov (n : SockId) : (s.attach n).prov = s.prov := rfl
@[simp] theorem State.attach_released (n : SockId) : (s.attach n).released = s.released := rfl
@[simp] theorem State.attach_alive (n : SockId) : (s.attach n).alive = s.alive := rfl
@[simp] theorem State.attach_fa (n : SockId) : (s.attach n).fa = s.fa := rfl
@[simp] theorem State.attach_seed (n : SockId) : (s.attach n).seed = s.seed := rfl
@[simp] theorem State.attach_now (n : SockId) : (s.attach n).now = s.now := rfl
@[simp] theorem State.attach_seedIn (n : SockId) : (s.attach n).seedIn = s.seedIn := rfl
@[simp] theorem State.attach_linkIn (n : SockId) : (s.attach n).linkIn = s.linkIn := rfl
@[simp] theorem State.attach_portIn (n : SockId) : (s.attach n).portIn = s.portIn := rfl
@[simp] theorem State.attach_inputs (n : SockId) : (s.attach n).inputs = s.inputs := rfl
@[simp] theorem State.attach_rdata (n : SockId) : (s.attach n).rdata = s.rdata := rfl
@[simp] theorem State.attach_fdata (n : SockId) : (s.attach n).fdata = s.fdata := rfl
@[simp] theorem State.attach_fstatus (n : SockId) : (s.attach n).fstatus = s.fstatus := rfl
@[simp] theorem State.attach_notices (n : SockId) : (s.attach n).notices = s.notices := rfl
@[simp] theorem State.attach_netLog (n : SockId) : (s.attach n).netLog = s.netLog := rfl
@[simp] theorem State.attach_freeUsed (n : SockId) : (s.attach n).freeUsed = s.freeUsed := rfl
@[simp] theorem State.attach_cfg (n : SockId) : (s.attach n).cfg = s.cfg := rfl
@[simp] theorem State.attach_load (n : SockId) (c : Nat) : (s.attach n).load c = s.load c := rfl

/-! ## establish -/

@[simp] theorem State.establish_mem (n : SockId) : (s.establish n).mem = s.mem := rfl
@[simp] theorem State.establish_dhcp (n : SockId) : (s.establish n).dhcp = s.dhcp := rfl
@[simp] theorem State.establish_pings (n : SockId) : (s.establish n).pings = s.pings := rfl
@[simp] theorem State.establish_prov (n : SockId) : (s.establish n).prov = s.prov := rfl
@[simp] theorem State.establish_released (n : SockId) : (s.establish n).released = s.released := rfl
@[simp] theorem State.establish_alive (n : SockId) : (s.establish n).alive = s.alive := rfl
@[simp] theorem State.establish_fa (n : SockId) : (s.establish n).fa = s.fa := rfl
@[simp] theorem State.establish_seed (n : SockId) : (s.establish n).seed = s.seed := rfl
@[simp] theorem State.establish_now (n : SockId) : (s.establish n).now = s.now := rfl
@[simp] theorem State.establish_seedIn (n : SockId) : (s.establish n).seedIn = s.seedIn := rfl
@[simp] theorem State.establish_linkIn (n : SockId) : (s.establish n).linkIn = s.linkIn := rfl
@[simp] theorem State.establish_portIn (n : SockId) : (s.establish n).portIn = s.portIn := rfl
@[simp] theorem State.establish_inputs (n : SockId) : (s.establish n).inputs = s.inputs := rfl
@[simp] theorem State.establish_rdata (n : SockId) : (s.establish n).rdata = s.rdata := rfl
@[simp] theorem State.establish_fdata (n : SockId) : (s.establish n).fdata = s.fdata := rfl
@[simp] theorem State.establish_fstatus (n : SockId) : (s.establish n).fstatus = s.fstatus := rfl
@[simp] theorem State.establish_notices (n : SockId) : (s.establish n).notices = s.notices := rfl
@[simp] theorem State.establish_netLog (n : SockId) : (s.establish n).netLog = s.netLog := rfl
@[simp] theorem State.establish_freeUsed (n : SockId) : (s.establish n).freeUsed = s.freeUsed := rfl
@[simp] theorem State.establish_cfg (n : SockId) : (s.establish n).cfg = s.cfg := rfl
@[simp] theorem State.establish_load (n : SockId) (c : Nat) : (s.establish n).load c = s.load c := rfl

/-! ## keepListener -/

@[simp] theorem State.keepListener_mem (n : SockId) (b : Bool) : (s.keepListener n b).mem = s.mem := by unfold State.keepListener; split <;> rfl
@[simp] theorem State.keepListener_dhcp (n : SockId) (b : Bool) : (s.keepListener n b).dhcp = s.dhcp := by unfold State.keepListener; split <;> rfl
@[simp] theorem State.keepListener_pings (n : SockId) (b : Bool) : (s.keepListener n b).pings = s.pings := by unfold State.keepListener; split <;> rfl
@[simp] theorem State.keepListener_prov (n : SockId) (b : Bool) : (s.keepListener n b).prov = s.prov := by unfold State.keepListener; split <;> rfl
@[simp] theorem State.keepListener_released (n : SockId) (b : Bool) : (s.keepListener n b).released = s.released := by unfold State.keepListener; split <;> rfl
@[simp] theorem State.keepListener_alive (n : SockId) (b : Bool) : (s.keepListener n b).alive = s.alive := by unfold State.keepListener; split <;> rfl
@[simp] theorem State.keepListener_fa (n : SockId) (b : Bool) : (s.keepListener n b).fa = s.fa := by unfold State.keepListener; split <;> rfl
@[simp] theorem State.keepListener_seed (n : SockId) (b : Bool) : (s.keepListener n b).seed = s.seed := by unfold State.keepListener; split <;> rfl
@[simp] theorem State.keepListener_now (n : SockId) (b : Bool) : (s.keepListener n b).now = s.now := by unfold State.keepListener; split <;> rfl
@[simp] theorem State.keepListener_seedIn (n : SockId) (b : Bool) : (s.keepListener n b).seedIn = s.seedIn := by unfold State.keepListener; split <;> rfl
@[simp] theorem State.keepListener_linkIn (n : SockId) (b : Bool) : (s.keepListener n b).linkIn = s.linkIn := by unfold State.keepListener; split <;> rfl
@[simp] theorem State.keepListener_portIn (n : SockId) (b : Bool) : (s.keepListener n b).portIn = s.portIn := by unfold State.keepListener; split <;> rfl
@[simp] theorem State.keepListener_inputs (n : SockId) (b : Bool) : (s.keepListener n b).inputs = s.inputs := by unfold State.keepListener; split <;> rfl
@[simp] theorem State.keepListener_rdata (n : SockId) (b : Bool) : (s.keepListener n b).rdata = s.rdata := by unfold State.keepListener; split <;> rfl
@[simp] theorem State.keepListener_fdata (n : SockId) (b : Bool) : (s.keepListener n b).fdata = s.fdata := by unfold State.keepListener; split <;> rfl
@[simp] theorem State.keepListener_fstatus (n : SockId) (b : Bool) : (s.keepListener n b).fstatus = s.fstatus := by unfold State.keepListener; split <;> rfl
@[simp] theorem State.keepListener_notices (n : SockId) (b : Bool) : (s.keepListener n b).notices = s.notices := by unfold State.keepListener; split <;> rfl
@[simp] theorem State.keepListener_netLog (n : SockId) (b : Bool) : (s.keepListener n b).netLog = s.netLog := by unfold State.keepListener; split <;> rfl
@[simp] theorem State.keepListener_freeUsed (n : SockId) (b : Bool) : (s.keepListener n b).freeUsed = s.freeUsed := by unfold State.keepListener; split <;> rfl
@[simp] theorem State.keepListener_cfg (n : SockId) (b : Bool) : (s.keepListener n b).cfg = s.cfg := by unfold State.keepListener; split <;> rfl
@[simp] theorem State.keepListener_load (n : SockId) (b : Bool) (c : Nat) : (s.keepListener n b).load c = s.load c := by simp [State.load]

/-! ## countFree -/

@[simp] theorem State.countFree_mem (n : SockId) : (s.countFree n).mem = s.mem := by unfold State.countFree; split <;> rfl
@[simp] theorem State.countFree_socks (n : SockId) : (s.countFree n).socks = s.socks := by unfold State.countFree; split <;> rfl
@[simp] theorem State.countFree_dhcp (n : SockId) : (s.countFree n).dhcp = s.dhcp := by unfold State.countFree; split <;> rfl
@[simp] theorem State.countFree_pings (n : SockId) : (s.countFree n).pings = s.pings := by unfold State.countFree; split <;> rfl
@[simp] theorem State.countFree_prov (n : SockId) : (s.countFree n).prov = s.prov := by unfold State.countFree; split <;> rfl
@[simp] theorem State.countFree_released (n : SockId) : (s.countFree n).released = s.released := by unfold State.countFree; split <;> rfl
@[simp] theorem State.countFree_alive (n : SockId) : (s.countFree n).alive = s.alive := by unfold State.countFree; split <;> rfl
@[simp] theorem State.countFree_fa (n : SockId) : (s.countFree n).fa = s.fa := by unfold State.countFree; split <;> rfl
@[simp] theorem State.countFree_seed (n : SockId) : (s.countFree n).seed = s.seed := by unfold State.countFree; split <;> rfl
@[simp] theorem State.countFree_now (n : SockId) : (s.countFree n).now = s.now := by unfold State.countFree; split <;> rfl
@[simp] theorem State.countFree_seedIn (n : SockId) : (s.countFree n).seedIn = s.seedIn := by unfold State.countFree; split <;> rfl
@[simp] theorem State.countFree_linkIn (n : SockId) : (s.countFree n).linkIn = s.linkIn := by unfold State.countFree; split <;> rfl
@[simp] theorem State.countFree_portIn (n : SockId) : (s.countFree n).portIn = s.portIn := by unfold State.countFree; split <;> rfl
@[simp] theorem State.countFree_inputs (n : SockId) : (s.countFree n).inputs = s.inputs := by unfold State.countFree; split <;> rfl
@[simp] theorem State.countFree_rdata (n : SockId) : (s.countFree n).rdata = s.rdata := by unfold State.countFree; split <;> rfl
@[simp] theorem State.countFree_fdata (n : SockId) : (s.countFree n).fdata = s.fdata := by unfold State.countFree; split <;> rfl
@[simp] theorem State.countFree_fstatus (n : SockId) : (s.countFree n).fstatus = s.fstatus := by unfold State.countFree; split <;> rfl
@[simp] theorem State.countFree_notices (n : SockId) : (s.countFree n).notices = s.notices := by unfold State.countFree; split <;> rfl
@[simp] theorem State.countFree_netLog (n : SockId) : (s.countFree n).netLog = s.netLog := by unfold State.countFree; split <;> rfl
@[simp] theorem State.countFree_nextHandle (n : SockId) : (s.countFree n).nextHandle = s.nextHandle := by unfold State.countFree; split <;> rfl
@[simp] theorem State.countFree_cfg (n : SockId) : (s.countFree n).cfg = s.cfg := by unfold State.countFree; split <;> rfl
@[simp] theorem State.countFree_sock (n : SockId) (m : SockId) : (s.countFree n).sock m = s.sock m := by simp [State.sock]
@[simp] theorem State.countFree_load (n : SockId) (c : Nat) : (s.countFree n).load c = s.load c := by simp [State.load]

/-! ## releasePort -/

@[simp] theorem State.releasePort_mem (p : Half) : (s.releasePort p).mem = s.mem := by unfold State.releasePort; split <;> rfl
@[simp] theorem State.releasePort_socks (p : Half) : (s.releasePort p).socks = s.socks := by unfold State.releasePort; split <;> rfl
@[simp] theorem State.releasePort_dhcp (p : Half) : (s.releasePort p).dhcp = s.dhcp := by unfold State.releasePort; split <;> rfl
@[simp] theorem State.releasePort_pings (p : Half) : (s.releasePort p).pings = s.pings := by unfold State.releasePort; split <;> rfl
@[simp] theorem State.releasePort_alive (p : Half) : (s.releasePort p).alive = s.alive := by unfold State.releasePort; split <;> rfl
@[simp] theorem State.releasePort_fa (p : Half) : (s.releasePort p).fa = s.fa := by unfold State.releasePort; split <;> rfl
@[simp] theorem State.releasePort_seed (p : Half) : (s.releasePort p).seed = s.seed := by unfold State.releasePort; split <;> rfl
@[simp] theorem State.releasePort_now (p : Half) : (s.releasePort p).now = s.now := by unfold State.releasePort; split <;> rfl
@[simp] theorem State.releasePort_seedIn (p : Half) : (s.releasePort p).seedIn = s.seedIn := by unfold State.releasePort; split <;> rfl
@[simp] theorem State.releasePort_linkIn (p : Half) : (s.releasePort p).linkIn = s.linkIn := by unfold State.releasePort; split <;> rfl
@[simp] theorem State.releasePort_portIn (p : Half) : (s.releasePort p).portIn = s.portIn := by unfold State.releasePort; split <;> rfl
@[simp] theorem State.releasePort_inputs (p : Half) : (s.releasePort p).inputs = s.inputs := by unfold State.releasePort; split <;> rfl
@[simp] theorem State.releasePort_rdata (p : Half) : (s.releasePort p).rdata = s.rdata := by unfold State.releasePort; split <;> rfl
@[simp] theorem State.releasePort_fdata (p : Half) : (s.releasePort p).fdata = s.fdata := by unfold State.releasePort; split <;> rfl
@[simp] theorem State.releasePort_fstatus (p : Half) : (s.releasePort p).fstatus = s.fstatus := by unfold State.releasePort; split <;> rfl
@[simp] theorem State.releasePort_notices (p : Half) : (s.releasePort p).notices = s.notices := by unfold State.releasePort; split <;> rfl
@[simp] theorem State.releasePort_netLog (p : Half) : (s.releasePort p).netLog = s.netLog := by unfold State.releasePort; split <;> rfl
@[simp] theorem State.releasePort_nextHandle (p : Half) : (s.releasePort p).nextHandle = s.nextHandle := by unfold State.releasePort; split <;> rfl
@[simp] theorem State.releasePort_freeUsed (p : Half) : (s.releasePort p).freeUsed = s.freeUsed := by unfold State.releasePort; split <;> rfl
@[simp] theorem State.releasePort_cfg (p : Half) : (s.releasePort p).cfg = s.cfg := by unfold State.releasePort; split <;> rfl
@[simp] theorem State.releasePort_sock (p : Half) (m : SockId) : (s.releasePort p).sock m = s.sock m := by simp [State.sock]
@[simp] theorem State.releasePort_load (p : Half) (c : Nat) : (s.releasePort p).load c = s.load c := by simp [State.load]

/-! ## askReceive -/

@[simp] theorem State.askReceive_mem (n : SockId) : (s.askReceive n).mem = s.mem := by unfold State.askReceive; split <;> [rfl; split <;> rfl]
@[simp] theorem State.askReceive_socks (n : SockId) : (s.askReceive n).socks = s.socks := by unfold State.askReceive; split <;> [rfl; split <;> rfl]
@[simp] theorem State.askReceive_dhcp (n : SockId) : (s.askReceive n).dhcp = s.dhcp := by unfold State.askReceive; split <;> [rfl; split <;> rfl]
@[simp] theorem State.askReceive_pings (n : SockId) : (s.askReceive n).pings = s.pings := by unfold State.askReceive; split <;> [rfl; split <;> rfl]
@[simp] theorem State.askReceive_prov (n : SockId) : (s.askReceive n).prov = s.prov := by unfold State.askReceive; split <;> [rfl; split <;> rfl]
@[simp] theorem State.askReceive_released (n : SockId) : (s.askReceive n).released = s.released := by unfold State.askReceive; split <;> [rfl; split <;> rfl]
@[simp] theorem State.askReceive_alive (n : SockId) : (s.askReceive n).alive = s.alive := by unfold State.askReceive; split <;> [rfl; split <;> rfl]
@[simp] theorem State.askReceive_fa (n : SockId) : (s.askReceive n).fa = s.fa := by unfold State.askReceive; split <;> [rfl; split <;> rfl]
@[simp] theorem State.askReceive_seed (n : SockId) : (s.askReceive n).seed = s.seed := by unfold State.askReceive; split <;> [rfl; split <;> rfl]
@[simp] theorem State.askReceive_now (n : SockId) : (s.askReceive n).now = s.now := by unfold State.askReceive; split <;> [rfl; split <;> rfl]
@[simp] theorem State.askReceive_seedIn (n : SockId) : (s.askReceive n).seedIn = s.seedIn := by unfold State.askReceive; split <;> [rfl; split <;> rfl]
@[simp] theorem State.askReceive_linkIn (n : SockId) : (s.askReceive n).linkIn = s.linkIn := by unfold State.askReceive; split <;> [rfl; split <;> rfl]
@[simp] theorem State.askReceive_portIn (n : SockId) : (s.askReceive n).portIn = s.portIn := by unfold State.askReceive; split <;> [rfl; split <;> rfl]
@[simp] theorem State.askReceive_inputs (n : SockId) : (s.askReceive n).inputs = s.inputs := by unfold State.askReceive; split <;> [rfl; split <;> rfl]
@[simp] theorem State.askReceive_rdata (n : SockId) : (s.askReceive n).rdata = s.rdata := by unfold State.askReceive; split <;> [rfl; split <;> rfl]
@[simp] theorem State.askReceive_fdata (n : SockId) : (s.askReceive n).fdata = s.fdata := by unfold State.askReceive; split <;> [rfl; split <;> rfl]
@[simp] theorem State.askReceive_fstatus (n : SockId) : (s.askReceive n).fstatus = s.fstatus := by unfold State.askReceive; split <;> [rfl; split <;> rfl]
@[simp] theorem State.askReceive_notices (n : SockId) : (s.askReceive n).notices = s.notices := by unfold State.askReceive; split <;> [rfl; split <;> rfl]
@[simp] theorem State.askReceive_nextHandle (n : SockId) : (s.askReceive n).nextHandle = s.nextHandle := by unfold State.askReceive; split <;> [rfl; split <;> rfl]
@[simp] theorem State.askReceive_freeUsed (n : SockId) : (s.askReceive n).freeUsed = s.freeUsed := by unfold State.askReceive; split <;> [rfl; split <;> rfl]
@[simp] theorem State.askReceive_cfg (n : SockId) : (s.askReceive n).cfg = s.cfg := by unfold State.askReceive; split <;> [rfl; split <;> rfl]
@[simp] theorem State.askReceive_sock (n : SockId) (m : SockId) : (s.askReceive n).sock m = s.sock m := by simp [State.sock]
@[simp] theorem State.askReceive_load (n : SockId) (c : Nat) : (s.askReceive n).load c = s.load c := by simp [State.load]

/-! ## commitTxWr -/

@[simp] theorem State.commitTxWr_dhcp (n : SockId) (v : Byte) : (s.commitTxWr n v).dhcp = s.dhcp := rfl
@[simp] theorem State.commitTxWr_pings (n : SockId) (v : Byte) : (s.commitTxWr n v).pings = s.pings := rfl
@[simp] theorem State.commitTxWr_prov (n : SockId) (v : Byte) : (s.commitTxWr n v).prov = s.prov := rfl
@[simp] theorem State.commitTxWr_released (n : SockId) (v : Byte) : (s.commitTxWr n v).released = s.released := rfl
@[simp] theorem State.commitTxWr_alive (n : SockId) (v : Byte) : (s.commitTxWr n v).alive = s.alive := rfl
@[simp] theorem State.commitTxWr_fa (n : SockId) (v : Byte) : (s.commitTxWr n v).fa = s.fa := rfl
@[simp] theorem State.commitTxWr_seed (n : SockId) (v : Byte) : (s.commitTxWr n v).seed = s.seed := rfl
@[simp] theorem State.commitTxWr_now (n : SockId) (v : Byte) : (s.commitTxWr n v).now = s.now := rfl
@[simp] theorem State.commitTxWr_seedIn (n : SockId) (v : Byte) : (s.commitTxWr n v).seedIn = s.seedIn := rfl
@[simp] theorem State.commitTxWr_linkIn (n : SockId) (v : Byte) : (s.commitTxWr n v).linkIn = s.linkIn := rfl
@[simp] theorem State.commitTxWr_portIn (n : SockId) (v : Byte) : (s.commitTxWr n v).portIn = s.portIn := rfl
@[simp] theorem State.commitTxWr_inputs (n : SockId) (v : Byte) : (s.commitTxWr n v).inputs = s.inputs := rfl
@[simp] theorem State.commitTxWr_rdata (n : SockId) (v : Byte) : (s.commitTxWr n v).rdata = s.rdata := rfl
@[simp] theorem State.commitTxWr_fdata (n : SockId) (v : Byte) : (s.commitTxWr n v).fdata = s.fdata := rfl
@[simp] theorem State.commitTxWr_fstatus (n : SockId) (v : Byte) : (s.commitTxWr n v).fstatus = s.fstatus := rfl
@[simp] theorem State.commitTxWr_notices (n : SockId) (v : Byte) : (s.commitTxWr n v).notices = s.notices := rfl
@[simp] theorem State.commitTxWr_netLog (n : SockId) (v : Byte) : (s.commitTxWr n v).netLog = s.netLog := rfl
@[simp] theorem State.commitTxWr_nextHandle (n : SockId) (v : Byte) : (s.commitTxWr n v).nextHandle = s.nextHandle := rfl
@[simp] theorem State.commitTxWr_freeUsed (n : SockId) (v : Byte) : (s.commitTxWr n v).freeUsed = s.freeUsed := rfl
@[simp] theorem State.commitTxWr_cfg (n : SockId) (v : Byte) : (s.commitTxWr n v).cfg = s.cfg := rfl

/-! ## answer -/

@[simp] theorem State.answer_mem (l : List Byte) : (s.answer l).mem = s.mem := rfl
@[simp] theorem State.answer_socks (l : List Byte) : (s.answer l).socks = s.socks := rfl
@[simp] theorem State.answer_dhcp (l : List Byte) : (s.answer l).dhcp = s.dhcp := rfl
@[simp] theorem State.answer_pings (l : List Byte) : (s.answer l).pings = s.pings := rfl
@[simp] theorem State.answer_prov (l : List Byte) : (s.answer l).prov = s.prov := rfl
@[simp] theorem State.answer_released (l : List Byte) : (s.answer l).released = s.released := rfl
@[simp] theorem State.answer_alive (l : List Byte) : (s.answer l).alive = s.alive := rfl
@[simp] theorem State.answer_seed (l : List Byte) : (s.answer l).seed = s.seed := rfl
@[simp] theorem State.answer_now (l : List Byte) : (s.answer l).now = s.now := rfl
@[simp] theorem State.answer_seedIn (l : List Byte) : (s.answer l).seedIn = s.seedIn := rfl
@[simp] theorem State.answer_linkIn (l : List Byte) : (s.answer l).linkIn = s.linkIn := rfl
@[simp] theorem State.answer_portIn (l : List Byte) : (s.answer l).portIn = s.portIn := rfl
@[simp] theorem State.answer_inputs (l : List Byte) : (s.answer l).inputs = s.inputs := rfl
@[simp] theorem State.answer_rdata (l : List Byte) : (s.answer l).rdata = s.rdata := rfl
@[simp] theorem State.answer_fdata (l : List Byte) : (s.answer l).fdata = s.fdata := rfl
@[simp] theorem State.answer_fstatus (l : List Byte) : (s.answer l).fstatus = s.fstatus := rfl
@[simp] theorem State.answer_notices (l : List Byte) : (s.answer l).notices = s.notices := rfl
@[simp] theorem State.answer_netLog (l : List Byte) : (s.answer l).netLog = s.netLog := rfl
@[simp] theorem State.answer_nextHandle (l : List Byte) : (s.answer l).nextHandle = s.nextHandle := rfl
@[simp] theorem State.answer_freeUsed (l : List Byte) : (s.answer l).freeUsed = s.freeUsed := rfl
@[simp] theorem State.answer_cfg (l : List Byte) : (s.answer l).cfg = s.cfg := rfl
@[simp] theorem State.answer_sock (l : List Byte) (m : SockId) : (s.answer l).sock m = s.sock m := rfl
@[simp] theorem State.answer_load (l : List Byte) (c : Nat) : (s.answer l).load c = s.load c := rfl

/-! ## countError -/

@[simp] theorem State.countError_mem : (s.countError).mem = s.mem := rfl
@[simp] theorem State.countError_socks : (s.countError).socks = s.socks := rfl
@[simp] theorem State.countError_dhcp : (s.countError).dhcp = s.dhcp := rfl
@[simp] theorem State.countError_pings : (s.countError).pings = s.pings := rfl
@[simp] theorem State.countError_prov : (s.countError).prov = s.prov := rfl
@[simp] theorem State.countError_released : (s.countError).released = s.released := rfl
@[simp] theorem State.countError_alive : (s.countError).alive = s.alive := rfl
@[simp] theorem State.countError_seed : (s.countError).seed = s.seed := rfl
@[simp] theorem State.countError_now : (s.countError).now = s.now := rfl
@[simp] theorem State.countError_seedIn : (s.countError).seedIn = s.seedIn := rfl
@[simp] theorem State.countError_linkIn : (s.countError).linkIn = s.linkIn := rfl
@[simp] theorem State.countError_portIn : (s.countError).portIn = s.portIn := rfl
@[simp] theorem State.countError_inputs : (s.countError).inputs = s.inputs := rfl
@[simp] theorem State.countError_rdata : (s.countError).rdata = s.rdata := rfl
@[simp] theorem State.countError_fdata : (s.countError).fdata = s.fdata := rfl
@[simp] theorem State.countError_fstatus : (s.countError).fstatus = s.fstatus := rfl
@[simp] theorem State.countError_notices : (s.countError).notices = s.notices := rfl
@[simp] theorem State.countError_netLog : (s.countError).netLog = s.netLog := rfl
@[simp] theorem State.countError_nextHandle : (s.countError).nextHandle = s.nextHandle := rfl
@[simp] theorem State.countError_freeUsed : (s.countError).freeUsed = s.freeUsed := rfl
@[simp] theorem State.countError_cfg : (s.countError).cfg = s.cfg := rfl
@[simp] theorem State.countError_sock (m : SockId) : (s.countError).sock m = s.sock m := rfl
@[simp] theorem State.countError_load (c : Nat) : (s.countError).load c = s.load c := rfl

/-! ## beginData -/

@[simp] theorem State.beginData_mem (k : Nat) : (s.beginData k).mem = s.mem := rfl
@[simp] theorem State.beginData_socks (k : Nat) : (s.beginData k).socks = s.socks := rfl
@[simp] theorem State.beginData_dhcp (k : Nat) : (s.beginData k).dhcp = s.dhcp := rfl
@[simp] theorem State.beginData_pings (k : Nat) : (s.beginData k).pings = s.pings := rfl
@[simp] theorem State.beginData_prov (k : Nat) : (s.beginData k).prov = s.prov := rfl
@[simp] theorem State.beginData_released (k : Nat) : (s.beginData k).released = s.released := rfl
@[simp] theorem State.beginData_alive (k : Nat) : (s.beginData k).alive = s.alive := rfl
@[simp] theorem State.beginData_seed (k : Nat) : (s.beginData k).seed = s.seed := rfl
@[simp] theorem State.beginData_now (k : Nat) : (s.beginData k).now = s.now := rfl
@[simp] theorem State.beginData_seedIn (k : Nat) : (s.beginData k).seedIn = s.seedIn := rfl
@[simp] theorem State.beginData_linkIn (k : Nat) : (s.beginData k).linkIn = s.linkIn := rfl
@[simp] theorem State.beginData_portIn (k : Nat) : (s.beginData k).portIn = s.portIn := rfl
@[simp] theorem State.beginData_inputs (k : Nat) : (s.beginData k).inputs = s.inputs := rfl
@[simp] theorem State.beginData_rdata (k : Nat) : (s.beginData k).rdata = s.rdata := rfl
@[simp] theorem State.beginData_fdata (k : Nat) : (s.beginData k).fdata = s.fdata := rfl
@[simp] theorem State.beginData_fstatus (k : Nat) : (s.beginData k).fstatus = s.fstatus := rfl
@[simp] theorem State.beginData_notices (k : Nat) : (s.beginData k).notices = s.notices := rfl
@[simp] theorem State.beginData_netLog (k : Nat) : (s.beginData k).netLog = s.netLog := rfl
@[simp] theorem State.beginData_nextHandle (k : Nat) : (s.beginData k).nextHandle = s.nextHandle := rfl
@[simp] theorem State.beginData_freeUsed (k : Nat) : (s.beginData k).freeUsed = s.freeUsed := rfl
@[simp] theorem State.beginData_cfg (k : Nat) : (s.beginData k).cfg = s.cfg := rfl
@[simp] theorem State.beginData_sock (k : Nat) (m : SockId) : (s.beginData k).sock m = s.sock m := rfl
@[simp] theorem State.beginData_load (k : Nat) (c : Nat) : (s.beginData k).load c = s.load c := rfl

/-! ## resetFacade -/

@[simp] theorem State.resetFacade_mem : (s.resetFacade).mem = s.mem := rfl
@[simp] theorem State.resetFacade_socks : (s.resetFacade).socks = s.socks := rfl
@[simp] theorem State.resetFacade_dhcp : (s.resetFacade).dhcp = s.dhcp := rfl
@[simp] theorem State.resetFacade_pings : (s.resetFacade).pings = s.pings := rfl
@[simp] theorem State.resetFacade_prov : (s.resetFacade).prov = s.prov := rfl
@[simp] theorem State.resetFacade_released : (s.resetFacade).released = s.released := rfl
@[simp] theorem State.resetFacade_alive : (s.resetFacade).alive = s.alive := rfl
@[simp] theorem State.resetFacade_seed : (s.resetFacade).seed = s.seed := rfl
@[simp] theorem State.resetFacade_now : (s.resetFacade).now = s.now := rfl
@[simp] theorem State.resetFacade_seedIn : (s.resetFacade).seedIn = s.seedIn := rfl
@[simp] theorem State.resetFacade_linkIn : (s.resetFacade).linkIn = s.linkIn := rfl
@[simp] theorem State.resetFacade_portIn : (s.resetFacade).portIn = s.portIn := rfl
@[simp] theorem State.resetFacade_inputs : (s.resetFacade).inputs = s.inputs := rfl
@[simp] theorem State.resetFacade_rdata : (s.resetFacade).rdata = s.rdata := rfl
@[simp] theorem State.resetFacade_fdata : (s.resetFacade).fdata = s.fdata := rfl
@[simp] theorem State.resetFacade_fstatus : (s.resetFacade).fstatus = s.fstatus := rfl
@[simp] theorem State.resetFacade_notices : (s.resetFacade).notices = s.notices := rfl
@[simp] theorem State.resetFacade_netLog : (s.resetFacade).netLog = s.netLog := rfl
@[simp] theorem State.resetFacade_nextHandle : (s.resetFacade).nextHandle = s.nextHandle := rfl
@[simp] theorem State.resetFacade_freeUsed : (s.resetFacade).freeUsed = s.freeUsed := rfl
@[simp] theorem State.resetFacade_cfg : (s.resetFacade).cfg = s.cfg := rfl
@[simp] theorem State.resetFacade_sock (m : SockId) : (s.resetFacade).sock m = s.sock m := rfl
@[simp] theorem State.resetFacade_load (c : Nat) : (s.resetFacade).load c = s.load c := rfl

/-! ## The two views -/

/-- The record of a socket after one record was replaced. -/
@[simp] theorem State.sock_setSock (n m : SockId) (k : Sock) :
    (s.setSock n k).sock m = if m = n then k else s.sock m := by
  simp only [State.sock, State.setSock, Vector.getElem_set]
  by_cases h : m = n
  · simp [h]
  · have : n.val ≠ m.val := fun e => h (Fin.ext e.symm)
    simp [h, this]

/-- The record just written. -/
theorem State.sock_setSock_same (n : SockId) (k : Sock) : (s.setSock n k).sock n = k := by simp

/-- Two writes to one record: the last one counts. -/
@[simp] theorem State.setSock_setSock (n : SockId) (k k' : Sock) :
    (s.setSock n k).setSock n k' = s.setSock n k' := by
  simp [State.setSock]

/-- The stored byte at an address after one byte was stored. -/
@[simp] theorem State.load_poke (a b : Nat) (v : Byte) :
    (s.poke a v).load b = if b = a then v else s.load b := Memory.read_write _ _ _ _

/-- The stored byte at an address after a run of bytes was stored. -/
theorem State.load_pokeList (a b : Nat) (l : List Byte) :
    (s.pokeList a l).load b = if h : a ≤ b ∧ b < a + l.length then l[b - a]'(by omega) else s.load b :=
  Memory.read_writeList _ _ _ _

/-- A run of two bytes. -/
@[simp] theorem State.load_pokeList_two (a b : Nat) (v w : Byte) :
    (s.pokeList a [v, w]).load b = if b = a + 1 then w else if b = a then v else s.load b := by
  simp [State.pokeList, State.load, Memory.writeList, Memory.read_write]

@[simp] theorem State.load_setCr (n : SockId) (v : Byte) (b : Nat) :
    (s.setCr n v).load b = if b = sockAddr s.cfg.map n s.cfg.map.oCr then v else s.load b := State.load_poke _ _ _ _

@[simp] theorem State.load_ignoreCommand (n : SockId) (b : Nat) :
    (s.ignoreCommand n).load b = if b = sockAddr s.cfg.map n s.cfg.map.oCr then 0 else s.load b := State.load_poke _ _ _ _

@[simp] theorem State.load_finishOp (n : SockId) (b : Nat) :
    (s.finishOp n).load b = if b = sockAddr s.cfg.map n s.cfg.map.oCr then 0 else s.load b := State.load_poke _ _ _ _

@[simp] theorem State.load_initCursors (n : SockId) (b : Nat) :
    (s.initCursors n).load b =
      if b = sockAddr s.cfg.map n s.cfg.map.oRxRd + 1 ∨ b = sockAddr s.cfg.map n s.cfg.map.oRxRd ∨ b = sockAddr s.cfg.map n s.cfg.map.oTxWr + 1
        ∨ b = sockAddr s.cfg.map n s.cfg.map.oTxWr then 0 else s.load b := by
  simp only [State.initCursors, State.load_pokeList_two, State.setSock_load]
  grind

@[simp] theorem State.sock_setOp (n m : SockId) (o : CtlOp) :
    (s.setOp n o).sock m = if m = n then { s.sock n with op := o } else s.sock m := by
  simp [State.setOp]

@[simp] theorem State.sock_setStatus (n m : SockId) (x : Status) :
    (s.setStatus n x).sock m = if m = n then { s.sock n with status := x } else s.sock m := by
  simp [State.setStatus]

@[simp] theorem State.sock_finishOp (n m : SockId) :
    (s.finishOp n).sock m = if m = n then { s.sock n with op := .none } else s.sock m := by
  simp [State.finishOp]

@[simp] theorem State.sock_raiseInt (n m : SockId) (b : Byte) :
    (s.raiseInt n b).sock m = if m = n then { s.sock n with ir := (s.sock n).ir ||| b } else s.sock m := by
  simp [State.raiseInt, raisedBits]

@[simp] theorem State.sock_ackInt (n m : SockId) (v : Byte) :
    (s.ackInt n v).sock m =
      if m = n then { s.sock n with ir := (s.sock n).ir &&& ~~~v &&& s.cfg.codes.intMask } else s.sock m := by
  simp [State.ackInt, clearedBits]

@[simp] theorem State.sock_initCursors (n m : SockId) :
    (s.initCursors n).sock m =
      if m = n then { s.sock n with txRd := 0, txWr := 0, rxRd := 0, rxWr := 0, recvEnabled := false }
      else s.sock m := by
  simp [State.initCursors]

@[simp] theorem State.sock_releaseTx (n m : SockId) :
    (s.releaseTx n).sock m = if m = n then { s.sock n with txRd := (s.sock n).txWr } else s.sock m := by
  simp [State.releaseTx]

@[simp] theorem State.sock_attach (n m : SockId) :
    (s.attach n).sock m =
      if m = n then { s.sock n with conn := some s.nextHandle, recvEnabled := true } else s.sock m := by
  simp [State.attach]

@[simp] theorem State.sock_establish (n m : SockId) :
    (s.establish n).sock m =
      if m = n then { s.sock n with
          conn := some s.nextHandle, recvEnabled := true, status := .established
          ir := (s.sock n).ir ||| s.cfg.codes.intCon }
      else s.sock m := by
  by_cases h : m = n <;> simp [State.establish, h]

@[simp] theorem State.sock_closeHandles (n m : SockId) :
    (s.closeHandles n).sock m =
      if m = n then { s.sock n with conn := none, lsn := none } else s.sock m := by
  simp [State.closeHandles]

@[simp] theorem State.sock_dropConn (n m : SockId) :
    (s.dropConn n).sock m = if m = n then { s.sock n with conn := none } else s.sock m := by
  simp [State.dropConn]

@[simp] theorem State.sock_rxCommit (n m : SockId) (l : List Byte) :
    (s.rxCommit n l).sock m =
      if m = n then { s.sock n with
          rxWr := (s.sock n).rxWr + BitVec.ofNat 16 l.length, recvEnabled := false
          ir := (s.sock n).ir ||| s.cfg.codes.intRecv }
      else s.sock m := by
  by_cases h : m = n
  · simp [State.rxCommit, h]
  · simp [State.rxCommit, h]; rfl

@[simp] theorem State.mem_rxCommit (n : SockId) (l : List Byte) :
    (s.rxCommit n l).mem = ringWrite s.mem (s.rxBase n) (s.rxSize n) (s.sock n).rxWr.toNat l := rfl

@[simp] theorem State.nextHandle_attach (n : SockId) : (s.attach n).nextHandle = s.nextHandle + 1 := rfl

@[simp] theorem State.nextHandle_establish (n : SockId) : (s.establish n).nextHandle = s.nextHandle + 1 := rfl

@[simp] theorem State.netLog_ask (r : NetReq) : (s.ask r).netLog = s.netLog ++ [r] := rfl

end Sys2Proof.Machine
end

