-- ==== Sys2Proof/Laws/Ops.lean ====
section
/-! SUPPORT. One lemma for each shared operation that says what it can do, cited instead of unfolding it: addresses and views, the command dispatcher, engine effects, resets, the facade's byte-wise parser. -/

namespace Sys2Proof.Machine

open Sys2Proof

/-! ## Addresses -/

/-- In the tabled layout the offsets of a socket block stand at `blockAddr`. -/
theorem sockAddr_tabled (n : SockId) (off : Nat) : sockAddr .tabled n off = blockAddr n off := by
  simp [blockAddr, sockAddr, Config.AddressMap.tabled, Nat.mul_comm]

/-- Offsets below 256 name different addresses in different blocks, and in one block if they differ. -/
theorem blockAddr_inj (n m : SockId) (a b : Nat) (ha : a < 0x100) (hb : b < 0x100) :
    blockAddr n a = blockAddr m b ↔ n = m ∧ a = b := by
  simp only [blockAddr, Fin.ext_iff]
  omega

@[simp] theorem Loc.plain_orElse (x : Loc) : Loc.plain.orElse x = x := rfl

@[simp] theorem Loc.orElse_plain (x : Loc) : x.orElse .plain = x := by cases x <;> rfl

/-- The hook offsets are small. -/
theorem hookOffsets_lt : ∀ off ∈ hookOffsets, off < 0x30 := by decide

/-- What offset `off` of a socket block selects in the tabled layout (10_state.md R40). -/
def offsetLoc (n : SockId) (off : Nat) : Loc :=
  if off = 0x01 then .sCr n
  else if off = 0x02 then .sIr n
  else if off = 0x03 then .sDev n .sr
  else if off = 0x20 then .sDev n .txFsrHi
  else if off = 0x21 then .sDev n .txFsrLo
  else if off = 0x22 then .sDev n .txRdHi
  else if off = 0x23 then .sDev n .txRdLo
  else if off = 0x26 then .sDev n .rxRsrHi
  else if off = 0x27 then .sDev n .rxRsrLo
  else if off = 0x2A then .sDev n .rxWrHi
  else if off = 0x2B then .sDev n .rxWrLo
  else if off = 0x25 then .txWrLo n
  else if off = 0x29 then .rxRdLo n
  else .plain

/-- An arm that fits for one socket at most is that socket's. -/
theorem anySocket_eq (arm : SockId → Loc) (n : SockId) (h : ∀ k, k ≠ n → arm k = .plain) :
    anySocket arm = arm n := by
  match n with
  | 0 => simp [anySocket, h 1, h 2, h 3]
  | 1 => simp [anySocket, h 0, h 2, h 3]
  | 2 => simp [anySocket, h 0, h 1, h 3]
  | 3 => simp [anySocket, h 0, h 1, h 2]

/-- In one block an address names its offset. -/
theorem blockAddr_offset (n : SockId) (a b : Nat) : blockAddr n a = blockAddr n b ↔ a = b := by
  simp [blockAddr]

/-- Where no register of a socket stands, none of its arms fits. -/
theorem arms_plain (a : Nat) (k : SockId) (h : ∀ off ∈ hookOffsets, a ≠ blockAddr k off) :
    commandLoc .tabled a k = .plain ∧ interruptLoc .tabled a k = .plain ∧ deviceLoc .tabled a k = .plain
      ∧ commitLoc .tabled a k = .plain := by
  simp only [hookOffsets, devOffsets, List.cons_append, List.nil_append, List.forall_mem_cons] at h
  simp only [commandLoc, interruptLoc, deviceLoc, commitLoc, sockAddr_tabled]
  simp [Config.AddressMap.tabled, h]

/-- An address of a block is in no other block. -/
theorem arms_other (n k : SockId) (off : Nat) (lt : off < 0x100) (h : k ≠ n) :
    commandLoc .tabled (blockAddr n off) k = .plain ∧ interruptLoc .tabled (blockAddr n off) k = .plain
      ∧ deviceLoc .tabled (blockAddr n off) k = .plain ∧ commitLoc .tabled (blockAddr n off) k = .plain :=
  arms_plain _ k fun o m e => h ((blockAddr_inj n k off o lt (Nat.lt_trans (hookOffsets_lt o m) (by omega))).1 e).1.symm

/-- What an address of a socket block selects. -/
theorem locate_blockAddr (n : SockId) (off : Nat) (h : off < 0x100) :
    locate .tabled (blockAddr n off) = offsetLoc n off := by
  have f1 : ¬ Config.winSize ≤ blockAddr n off := by simp only [blockAddr, Config.winSize]; omega
  have f2 : ¬ blockAddr n off = Config.AddressMap.tabled.cMr := by
    show ¬ blockAddr n off = 0x0000; simp only [blockAddr]; omega
  have f3 : ¬ blockAddr n off = Config.AddressMap.tabled.cIr := by
    show ¬ blockAddr n off = 0x0015; simp only [blockAddr]; omega
  rw [locate, if_neg f1, if_neg f2, if_neg f3, anySocket_eq _ n fun k hk => (arms_other n k off h hk).1,
    anySocket_eq _ n fun k hk => (arms_other n k off h hk).2.1,
    anySocket_eq _ n fun k hk => (arms_other n k off h hk).2.2.1,
    anySocket_eq _ n fun k hk => (arms_other n k off h hk).2.2.2]
  by_cases m : off ∈ hookOffsets
  · simp only [commandLoc, interruptLoc, deviceLoc, commitLoc, sockAddr_tabled, blockAddr_offset]
    simp only [hookOffsets, devOffsets, List.cons_append, List.nil_append, List.mem_cons, List.not_mem_nil,
      or_false] at m
    rcases m with rfl | rfl | rfl | rfl | rfl | rfl | rfl | rfl | rfl | rfl | rfl | rfl | rfl <;> rfl
  · obtain ⟨c, i, d, p⟩ := arms_plain (blockAddr n off) n fun o mo e => m ((blockAddr_offset n off o).1 e ▸ mo)
    rw [c, i, d, p]
    simp only [hookOffsets, devOffsets, List.cons_append, List.nil_append, List.mem_cons, List.not_mem_nil, or_false,
      not_or] at m
    simp [offsetLoc, m]

/-- Plain storage is what no register of the tables stands at. -/
theorem locate_plain (a : Nat) (h : PlainAddr a) : locate .tabled a = .plain := by
  obtain ⟨lt, mr, ir, hook⟩ := h
  have arms (k : SockId) := arms_plain a k fun off m => hook k off m
  have f1 : ¬ Config.winSize ≤ a := by simp only [Config.winSize]; omega
  have f2 : ¬ a = Config.AddressMap.tabled.cMr := mr
  have f3 : ¬ a = Config.AddressMap.tabled.cIr := ir
  rw [locate, if_neg f1, if_neg f2, if_neg f3]
  simp [anySocket, arms]

/-- A socket block lies inside the window. -/
theorem blockAddr_lt (n : SockId) (off : Nat) (h : off < 0x100) : blockAddr n off < 0x8000 := by
  have := n.isLt
  simp only [blockAddr]
  omega

/-- A bus of 16 address bits carries the address as it is. -/
theorem busAddr_tabled (addr : Half) : busAddr .tabled addr = addr.toNat := Nat.mod_eq_of_lt addr.isLt

/-! ## Byte order -/

theorem getLsbD_half (h l : Byte) (i : Nat) :
    (half h l).getLsbD i = if i < 8 then l.getLsbD i else h.getLsbD (i - 8) := by
  refine (BitVec.getLsbD_append (x := h) (y := l) (i := i)).trans ?_
  cases Nat.decLt i 8 <;> simp [*]

/-- A register read back as two bytes is the register. -/
@[simp] theorem half_hi_lo (w : Half) : half (hiByte w) (loByte w) = w := by
  apply BitVec.eq_of_getLsbD_eq
  intro i hi
  rw [getLsbD_half]
  by_cases h : i < 8
  · simp [h, loByte]
  · simp [h, hiByte, show i - 8 < 8 by omega, show 8 + (i - 8) = i by omega]

@[simp] theorem hiByte_half (h l : Byte) : hiByte (half h l) = h := by
  apply BitVec.eq_of_getLsbD_eq
  intro i hi
  simp only [hiByte, BitVec.getLsbD_extractLsb', getLsbD_half]
  simp [hi]

@[simp] theorem loByte_half (h l : Byte) : loByte (half h l) = l := by
  apply BitVec.eq_of_getLsbD_eq
  intro i hi
  simp only [loByte, BitVec.getLsbD_extractLsb', getLsbD_half]
  simp [hi]

/-! ## What the views show -/

theorem peek_dev (s : State) (a : Nat) (n : SockId) (r : DevByte) (h : locate s.cfg.map a = .sDev n r) :
    s.peek a = s.devByte n r := by
  simp [State.peek, h]

theorem peek_ir (s : State) (h : s.cfg.Tabled) (n : SockId) : s.peek (blockAddr n 0x02) = (s.sock n).ir := by
  have e : locate s.cfg.map (blockAddr n 0x02) = .sIr n := by
    rw [h.map]; exact (locate_blockAddr n 0x02 (by omega)).trans rfl
  simp [State.peek, e]

theorem peek_sr (s : State) (h : s.cfg.Tabled) (n : SockId) :
    s.peek (blockAddr n 0x03) = statusCode s.cfg.codes (s.sock n).status :=
  peek_dev s _ n .sr (by rw [h.map]; exact (locate_blockAddr n 0x03 (by omega)).trans rfl)

theorem peek_txFsrHi (s : State) (h : s.cfg.Tabled) (n : SockId) :
    s.peek (blockAddr n 0x20) = hiByte (BitVec.ofNat 16 (s.txFree n)) :=
  peek_dev s _ n .txFsrHi (by rw [h.map]; exact (locate_blockAddr n 0x20 (by omega)).trans rfl)

theorem peek_txFsrLo (s : State) (h : s.cfg.Tabled) (n : SockId) :
    s.peek (blockAddr n 0x21) = loByte (BitVec.ofNat 16 (s.txFree n)) :=
  peek_dev s _ n .txFsrLo (by rw [h.map]; exact (locate_blockAddr n 0x21 (by omega)).trans rfl)

theorem peek_txRdHi (s : State) (h : s.cfg.Tabled) (n : SockId) :
    s.peek (blockAddr n 0x22) = hiByte (s.sock n).txRd :=
  peek_dev s _ n .txRdHi (by rw [h.map]; exact (locate_blockAddr n 0x22 (by omega)).trans rfl)

theorem peek_txRdLo (s : State) (h : s.cfg.Tabled) (n : SockId) :
    s.peek (blockAddr n 0x23) = loByte (s.sock n).txRd :=
  peek_dev s _ n .txRdLo (by rw [h.map]; exact (locate_blockAddr n 0x23 (by omega)).trans rfl)

theorem peek_rxRsrHi (s : State) (h : s.cfg.Tabled) (n : SockId) :
    s.peek (blockAddr n 0x26) = hiByte ((s.sock n).rxWr - (s.sock n).rxRd) :=
  peek_dev s _ n .rxRsrHi (by rw [h.map]; exact (locate_blockAddr n 0x26 (by omega)).trans rfl)

theorem peek_rxRsrLo (s : State) (h : s.cfg.Tabled) (n : SockId) :
    s.peek (blockAddr n 0x27) = loByte ((s.sock n).rxWr - (s.sock n).rxRd) :=
  peek_dev s _ n .rxRsrLo (by rw [h.map]; exact (locate_blockAddr n 0x27 (by omega)).trans rfl)

theorem peek_rxWrHi (s : State) (h : s.cfg.Tabled) (n : SockId) :
    s.peek (blockAddr n 0x2A) = hiByte (s.sock n).rxWr :=
  peek_dev s _ n .rxWrHi (by rw [h.map]; exact (locate_blockAddr n 0x2A (by omega)).trans rfl)

theorem peek_rxWrLo (s : State) (h : s.cfg.Tabled) (n : SockId) :
    s.peek (blockAddr n 0x2B) = loByte (s.sock n).rxWr :=
  peek_dev s _ n .rxWrLo (by rw [h.map]; exact (locate_blockAddr n 0x2B (by omega)).trans rfl)

theorem peek_cIr (s : State) (h : s.cfg.Tabled) : s.peek 0x0015 = s.cIr := by
  simp only [State.peek, h.map]
  rfl

theorem peek16_blockAddr (s : State) (n : SockId) (off : Nat) :
    s.peek16 (blockAddr n off) = half (s.peek (blockAddr n off)) (s.peek (blockAddr n (off + 1))) := rfl

/-- An effective size is one of the four requested sizes, or 0. -/
theorem effectiveSize_le (bank : Nat) (sel : Byte) (n : SockId) : effectiveSize bank sel n ≤ 8192 := by
  have h : (sel.toNat >>> (2 * n.val)) % 4 < 4 := Nat.mod_lt _ (by omega)
  unfold effectiveSize
  split
  · unfold reqSize
    interval_cases (sel.toNat >>> (2 * n.val)) % 4 <;> simp
  · omega

theorem txSize_le (s : State) (n : SockId) : s.txSize n ≤ 8192 := effectiveSize_le _ _ _

theorem rxSize_le (s : State) (n : SockId) : s.rxSize n ≤ 8192 := effectiveSize_le _ _ _

/-- `S[n].TX_FSR`: nothing is cut off. -/
theorem peek16_txFsr (s : State) (h : s.cfg.Tabled) (n : SockId) :
    (s.peek16 (blockAddr n 0x20)).toNat = s.txFree n := by
  rw [peek16_blockAddr, peek_txFsrHi s h, peek_txFsrLo s h, half_hi_lo, BitVec.toNat_ofNat, Nat.mod_eq_of_lt]
  have := txSize_le s n
  simp only [State.txFree]
  omega

/-- `S[n].RX_RSR`. -/
theorem peek16_rxRsr (s : State) (h : s.cfg.Tabled) (n : SockId) :
    s.peek16 (blockAddr n 0x26) = (s.sock n).rxWr - (s.sock n).rxRd := by
  rw [peek16_blockAddr, peek_rxRsrHi s h, peek_rxRsrLo s h, half_hi_lo]

/-! ## Access while alive -/

theorem whenAlive_alive (s : State) (r : Result) (h : s.alive = true) : whenAlive s r = r := by
  simp [whenAlive, h]

theorem whenAlive_dead (s : State) (r : Result) (h : s.alive = false) : whenAlive s r = .refused .destroyed := by
  simp [whenAlive, h]

/-! ## The command dispatcher -/

/-- Over a clear command byte the command's rule runs. -/
theorem dispatch_idle (closing : Bool) (n : SockId) (rule : State → Result) (s : State) (ha : s.alive = true)
    (ho : (s.sock n).op = .none) : dispatch closing n rule s = rule s := by
  simp [dispatch, ha, ho]

/-- Everything the dispatcher can do, if it answers a next state. -/
theorem dispatch_cases (closing : Bool) (n : SockId) (rule : State → Result) (s t : State)
    (h : dispatch closing n rule s = .next t) :
    s.alive = true ∧
      (((s.sock n).op = .none ∧ rule s = .next t)
        ∨ (∃ c, (s.sock n).op = .close c ∧ closing = true ∧ t = s)
        ∨ ((s.sock n).op ≠ .none ∧ (∀ c, (s.sock n).op ≠ .close c) ∧ closing = true
            ∧ rule (s.setOp n .none) = .next t)) := by
  cases ha : s.alive with
  | false => simp [dispatch, ha] at h
  | true =>
    cases ho : (s.sock n).op <;> cases closing <;> simp [dispatch, ha, ho] at h ⊢ <;>
      first | exact h | exact h.symm

/-- A command code is run by the meaning of the SCMD row it decodes to. -/
theorem commandWrite_eq_exec (n : SockId) (v : Byte) (s : State) :
    commandWrite n v s = exec (decodeScmd s.cfg.codes n v) s := by
  unfold commandWrite
  generalize hi : decodeScmd s.cfg.codes n v = i
  unfold decodeScmd at hi
  repeat' split at hi
  all_goals (subst hi; rfl)

/-! ## Effects -/

/-- A command that only replaces its socket's record and its command byte. -/
theorem commandEffect_of (n : SockId) (cr : Byte) (k : Sock) (s : State) :
    CommandEffect n cr k s ((s.setSock n k).setCr n cr) where
  record := by simp
  otherRecords m h := by simp [h]
  command := by simp
  bytes a h := by simp [h]
  rest := rfl

/-- An ignored command. -/
theorem commandEffect_ignore (n : SockId) (s : State) :
    CommandEffect n 0x00 (s.sock n) s (s.ignoreCommand n) where
  record := rfl
  otherRecords _ _ := rfl
  command := by simp
  bytes a h := by simp [h]
  rest := rfl

/-- What a receive leaves: the run, the other bytes, the record, nothing else. -/
theorem rxEffect_rxCommit (n : SockId) (bytes : List Byte) (s : State) (h : bytes.length ≤ s.rxSize n) :
    RxEffect n bytes [] s (s.rxCommit n bytes) where
  record := by simp
  otherRecords m hm := by simp [hm]
  stored i hi := by
    show Memory.read (s.rxCommit n bytes).mem _ = _
    rw [State.mem_rxCommit]
    exact read_ringWrite_run bytes s.mem _ _ _ i h hi
  bytesElsewhere a ha := by
    show Memory.read (s.rxCommit n bytes).mem _ = _
    rw [State.mem_rxCommit]
    exact read_ringWrite_other bytes s.mem _ _ _ a ha
  rest := by simp [State.rxCommit, State.raiseInt, State.setSock]

/-- The command byte's cell is in no ring: a receive leaves every address below the RX bank alone. -/
theorem load_rxCommit_below (n : SockId) (bytes : List Byte) (s : State) (a : Nat) (ha : a < s.cfg.map.rxBankBase) :
    (s.rxCommit n bytes).load a = s.load a := by
  show Memory.read (s.rxCommit n bytes).mem a = _
  rw [State.mem_rxCommit]
  apply read_ringWrite_other
  intro i _
  simp only [ringAddr, State.rxBase]
  omega

/-! ## Closing handles -/

@[simp] theorem State.closeHandle_none (s : State) : s.closeHandle none = s := rfl

@[simp] theorem State.closeHandle_some (s : State) (h : Handle) : s.closeHandle (some h) = s.ask (.close h) := rfl

/-- Closing handles asks for each of them once and changes nothing else but the two fields. -/
theorem State.closeHandles_eq (s : State) (n : SockId) :
    s.closeHandles n =
      { s.setSock n { s.sock n with conn := none, lsn := none } with
        netLog := s.netLog ++ ((s.sock n).conn.toList ++ (s.sock n).lsn.toList).map NetReq.close } := by
  unfold State.closeHandles
  cases (s.sock n).conn <;> cases (s.sock n).lsn <;>
    simp [State.ask, State.setSock, State.sock]

/-- The quiet internal close asks for the connection handle and drops it. -/
theorem State.dropConn_eq (s : State) (n : SockId) :
    s.dropConn n =
      { s.setSock n { s.sock n with conn := none } with
        netLog := s.netLog ++ (s.sock n).conn.toList.map NetReq.close } := by
  unfold State.dropConn
  cases (s.sock n).conn <;> simp [State.ask, State.setSock, State.sock]

/-! ## Resets -/

/-- One socket of a reset's first loop: its record, its command byte, the close requests, nothing else. -/
theorem State.stopSock_eq (s : State) (n : SockId) :
    s.stopSock n =
      { s with
        mem := (s.stopSock n).mem
        socks := s.socks.set n.val Sock.reset
        netLog := s.netLog ++ ((s.sock n).conn.toList ++ (s.sock n).lsn.toList).map NetReq.close } := by
  rw [State.stopSock, State.closeHandles_eq]
  simp only [State.setSock, State.sock, State.setCr, State.poke]
  congr 1
  simp [Sock.reset, Vector.set_set]

@[simp] theorem State.stopSock_cfg (s : State) (n : SockId) : (s.stopSock n).cfg = s.cfg := by
  rw [State.stopSock_eq]

@[simp] theorem State.load_stopSock (s : State) (n : SockId) (a : Nat) :
    (s.stopSock n).load a = if a = sockAddr s.cfg.map n s.cfg.map.oCr then 0 else s.load a := by
  have e : (s.closeHandles n).load a = s.load a := by rw [State.closeHandles_eq]; rfl
  simp [State.stopSock, State.load_setCr, e]

@[simp] theorem State.sock_stopSock (s : State) (n m : SockId) :
    (s.stopSock n).sock m = if m = n then Sock.reset else s.sock m := by
  rw [State.stopSock_eq]
  show (s.setSock n Sock.reset).sock m = _
  simp

/-! ## Facade -/

/-- Bytes go to the facade one after another. -/
theorem feed_cons (b : Byte) (bs : List Byte) (s : State) :
    feed (b :: bs) s =
      match feedByte b s with
      | .next t => feed bs t
      | .fault r => .fault r
      | .refused r => .refused r := rfl

theorem feed_nil (s : State) (h : s.alive = true) : feed [] s = .next s := whenAlive_alive _ _ h

/-- What a facade read run reads: one bus read per address. -/
theorem readRun_length (s : State) (k : Nat) (a : Half) : (readRun s k a).length = k := by
  induction k generalizing a with
  | zero => rfl
  | succ k ih => simp [readRun, ih]

theorem readRun_getElem (s : State) (k : Nat) (a : Half) (i : Nat) (h : i < (readRun s k a).length) :
    (readRun s k a)[i] = s.busRead (a + BitVec.ofNat 16 i) := by
  induction k generalizing a i with
  | zero => simp [readRun] at h
  | succ k ih =>
    cases i with
    | zero => simp [readRun]
    | succ i =>
      simp only [readRun, List.getElem_cons_succ]
      rw [ih]
      congr 1
      rw [show i + 1 = 1 + i by omega, BitVec.ofNat_add, ← BitVec.add_assoc]
      rfl

/-- A port the search finds is not 0 and not reserved. -/
theorem firstFreePort_spec (prov : List Half) (fuel : Nat) (p q : Half)
    (h : firstFreePort prov fuel p = some q) : q ≠ 0 ∧ q ∉ prov := by
  induction fuel generalizing p with
  | zero => simp [firstFreePort] at h
  | succ fuel ih =>
    unfold firstFreePort at h
    split at h
    · next hp => simp at h; subst h; simpa using hp
    · exact ih _ h

/-- An admissible port is found at once. -/
theorem firstFreePort_self (prov : List Half) (fuel : Nat) (p : Half) (h0 : p ≠ 0) (hp : p ∉ prov) :
    firstFreePort prov (fuel + 1) p = some p := by
  rw [firstFreePort, if_pos ⟨h0, by simpa using hp⟩]

end Sys2Proof.Machine
end

