-- ==== Sys2Proof/Laws/PerInstr.lean ====
section
/-! SUPPORT. Family `EncodeFormat`: the unit an instruction is encoded as has the input format its row of
spec/opcode_table.json names (30_encoding.md R110). -/

namespace Sys2Proof.Laws

open Sys2Proof

/-- The `format` column of spec/opcode_table.json. -/
inductive Format where
  | bus
  | scmd
  | smode
  | event
  | dhcpin
  | icmpin
  | fcmd
  | life
  deriving DecidableEq, Repr

/-- The format a unit arrives in. -/
def formatOf : Packet → Format
  | .bus _ => .bus
  | .scmd _ _ => .scmd
  | .smode _ _ => .smode
  | .dhcpin _ _ => .dhcpin
  | .icmpin _ _ _ => .icmpin
  | .fcmd _ => .fcmd
  | .event _ => .event
  | .life _ => .life

/-- The format of an instruction's row. -/
def rowFormat : Instr → Format
  | .rd _ => .bus
  | .wr _ _ => .bus
  | .wrCMr _ => .bus
  | .wrCIr _ => .bus
  | .wrSnCr _ _ => .bus
  | .wrSnIr _ _ => .bus
  | .wrSnSr _ _ => .bus
  | .wrSnTxWrLo _ _ => .bus
  | .wrSnRxRdLo _ _ => .bus
  | .scmdNone _ => .scmd
  | .scmdOpen _ => .scmd
  | .scmdListen _ => .scmd
  | .scmdConnect _ => .scmd
  | .scmdDiscon _ => .scmd
  | .scmdClose _ => .scmd
  | .scmdSend _ => .scmd
  | .scmdSendMac _ => .scmd
  | .scmdSendKeep _ => .scmd
  | .scmdRecv _ => .scmd
  | .scmdUnrecognised _ _ => .scmd
  | .smodeTcp _ _ => .smode
  | .smodeUdp _ _ => .smode
  | .smodeIpraw _ _ => .smode
  | .smodeMacraw _ _ => .smode
  | .smodePppoe _ _ => .smode
  | .smodeOther _ _ _ => .smode
  | .ctlUdpbindDone _ _ => .event
  | .ctlListenDone _ _ _ => .event
  | .ctlConnectDone _ _ => .event
  | .ctlSendDone _ _ _ => .event
  | .ctlCloseDone _ => .event
  | .rxTcp _ _ _ => .event
  | .rxUdp _ _ _ _ => .event
  | .rxEof _ => .event
  | .rxError _ _ => .event
  | .rxDhcpDeliver _ => .event
  | .rxIpraw _ => .event
  | .probeDone _ _ => .event
  | .pingExpire _ => .event
  | .dhcpExpire => .event
  | .dhcpDiscover _ _ => .dhcpin
  | .dhcpRequest _ _ => .dhcpin
  | .dhcpOther _ _ => .dhcpin
  | .dhcpInvalid _ _ => .dhcpin
  | .icmpEchoRequest _ _ => .icmpin
  | .icmpOther _ _ _ => .icmpin
  | .fWrbytes _ => .fcmd
  | .fRdbytes _ => .fcmd
  | .fSetaddr _ => .fcmd
  | .fGetaddr => .fcmd
  | .fRdtimer => .fcmd
  | .fWrip _ _ => .fcmd
  | .fRdip _ => .fcmd
  | .fPortno => .fcmd
  | .fSwver => .fcmd
  | .fHwver => .fcmd
  | .fLink => .fcmd
  | .fId => .fcmd
  | .fErrcnt => .fcmd
  | .fUnknown _ => .fcmd
  | .lifeSoft => .life
  | .lifeColdOn => .life
  | .lifePowerOff => .life
  | .lifeDestroy => .life

/-- The encoding of an instruction has its row's format, in every configuration. -/
def EncodeFormat.Statement (i : Instr) : Prop := ∀ c : Config.Params, formatOf (encode c i) = rowFormat i

theorem EncodeFormat.rd (addr : Half) : EncodeFormat.Statement (.rd addr) := fun _ => rfl
theorem EncodeFormat.wr (addr : Half) (data : Byte) : EncodeFormat.Statement (.wr addr data) := fun _ => rfl
theorem EncodeFormat.wrCMr (data : Byte) : EncodeFormat.Statement (.wrCMr data) := fun _ => rfl
theorem EncodeFormat.wrCIr (data : Byte) : EncodeFormat.Statement (.wrCIr data) := fun _ => rfl
theorem EncodeFormat.wrSnCr (n : SockId) (code : Byte) : EncodeFormat.Statement (.wrSnCr n code) := fun _ => rfl
theorem EncodeFormat.wrSnIr (n : SockId) (mask : Byte) : EncodeFormat.Statement (.wrSnIr n mask) := fun _ => rfl
theorem EncodeFormat.wrSnSr (n : SockId) (data : Byte) : EncodeFormat.Statement (.wrSnSr n data) := fun _ => rfl
theorem EncodeFormat.wrSnTxWrLo (n : SockId) (data : Byte) : EncodeFormat.Statement (.wrSnTxWrLo n data) := fun _ => rfl
theorem EncodeFormat.wrSnRxRdLo (n : SockId) (data : Byte) : EncodeFormat.Statement (.wrSnRxRdLo n data) := fun _ => rfl
theorem EncodeFormat.scmdNone (n : SockId) : EncodeFormat.Statement (.scmdNone n) := fun _ => rfl
theorem EncodeFormat.scmdOpen (n : SockId) : EncodeFormat.Statement (.scmdOpen n) := fun _ => rfl
theorem EncodeFormat.scmdListen (n : SockId) : EncodeFormat.Statement (.scmdListen n) := fun _ => rfl
theorem EncodeFormat.scmdConnect (n : SockId) : EncodeFormat.Statement (.scmdConnect n) := fun _ => rfl
theorem EncodeFormat.scmdDiscon (n : SockId) : EncodeFormat.Statement (.scmdDiscon n) := fun _ => rfl
theorem EncodeFormat.scmdClose (n : SockId) : EncodeFormat.Statement (.scmdClose n) := fun _ => rfl
theorem EncodeFormat.scmdSend (n : SockId) : EncodeFormat.Statement (.scmdSend n) := fun _ => rfl
theorem EncodeFormat.scmdSendMac (n : SockId) : EncodeFormat.Statement (.scmdSendMac n) := fun _ => rfl
theorem EncodeFormat.scmdSendKeep (n : SockId) : EncodeFormat.Statement (.scmdSendKeep n) := fun _ => rfl
theorem EncodeFormat.scmdRecv (n : SockId) : EncodeFormat.Statement (.scmdRecv n) := fun _ => rfl
theorem EncodeFormat.scmdUnrecognised (n : SockId) (code : Byte) : EncodeFormat.Statement (.scmdUnrecognised n code) := fun _ => rfl
theorem EncodeFormat.smodeTcp (n : SockId) (hi : BitVec 4) : EncodeFormat.Statement (.smodeTcp n hi) := fun _ => rfl
theorem EncodeFormat.smodeUdp (n : SockId) (hi : BitVec 4) : EncodeFormat.Statement (.smodeUdp n hi) := fun _ => rfl
theorem EncodeFormat.smodeIpraw (n : SockId) (hi : BitVec 4) : EncodeFormat.Statement (.smodeIpraw n hi) := fun _ => rfl
theorem EncodeFormat.smodeMacraw (n : SockId) (hi : BitVec 4) : EncodeFormat.Statement (.smodeMacraw n hi) := fun _ => rfl
theorem EncodeFormat.smodePppoe (n : SockId) (hi : BitVec 4) : EncodeFormat.Statement (.smodePppoe n hi) := fun _ => rfl
theorem EncodeFormat.smodeOther (n : SockId) (hi : BitVec 4) (p : BitVec 4) : EncodeFormat.Statement (.smodeOther n hi p) := fun _ => rfl
theorem EncodeFormat.ctlUdpbindDone (n : SockId) (answer : BindAnswer) :
    EncodeFormat.Statement (.ctlUdpbindDone n answer) := fun _ => rfl
theorem EncodeFormat.ctlListenDone (n : SockId) (answer : AcceptAnswer) (draw : ListenDraw) :
    EncodeFormat.Statement (.ctlListenDone n answer draw) := fun _ => rfl
theorem EncodeFormat.ctlConnectDone (n : SockId) (answer : ConnectAnswer) : EncodeFormat.Statement (.ctlConnectDone n answer) := fun _ => rfl
theorem EncodeFormat.ctlSendDone (n : SockId) (ok : Bool) (keep : Bool) : EncodeFormat.Statement (.ctlSendDone n ok keep) := fun _ => rfl
theorem EncodeFormat.ctlCloseDone (n : SockId) : EncodeFormat.Statement (.ctlCloseDone n) := fun _ => rfl
theorem EncodeFormat.rxTcp (n : SockId) (avail : List Byte) (k : Nat) : EncodeFormat.Statement (.rxTcp n avail k) := fun _ => rfl
theorem EncodeFormat.rxUdp (n : SockId) (ip : Quad) (port : Half) (payload : List Byte) : EncodeFormat.Statement (.rxUdp n ip port payload) := fun _ => rfl
theorem EncodeFormat.rxEof (n : SockId) : EncodeFormat.Statement (.rxEof n) := fun _ => rfl
theorem EncodeFormat.rxError (n : SockId) (keep : Bool) : EncodeFormat.Statement (.rxError n keep) := fun _ => rfl
theorem EncodeFormat.rxDhcpDeliver (n : SockId) : EncodeFormat.Statement (.rxDhcpDeliver n) := fun _ => rfl
theorem EncodeFormat.rxIpraw (n : SockId) : EncodeFormat.Statement (.rxIpraw n) := fun _ => rfl
theorem EncodeFormat.probeDone (p : Nat) (reachable : Bool) : EncodeFormat.Statement (.probeDone p reachable) := fun _ => rfl
theorem EncodeFormat.pingExpire (p : Nat) : EncodeFormat.Statement (.pingExpire p) := fun _ => rfl
theorem EncodeFormat.dhcpExpire : EncodeFormat.Statement (.dhcpExpire) := fun _ => rfl
theorem EncodeFormat.dhcpDiscover (n : SockId) (f : DhcpFrame) : EncodeFormat.Statement (.dhcpDiscover n f) := fun _ => rfl
theorem EncodeFormat.dhcpRequest (n : SockId) (f : DhcpFrame) : EncodeFormat.Statement (.dhcpRequest n f) := fun _ => rfl
theorem EncodeFormat.dhcpOther (n : SockId) (f : DhcpFrame) : EncodeFormat.Statement (.dhcpOther n f) := fun _ => rfl
theorem EncodeFormat.dhcpInvalid (n : SockId) (data : List Byte) : EncodeFormat.Statement (.dhcpInvalid n data) := fun _ => rfl
theorem EncodeFormat.icmpEchoRequest (n : SockId) (payload : List Byte) : EncodeFormat.Statement (.icmpEchoRequest n payload) := fun _ => rfl
theorem EncodeFormat.icmpOther (n : SockId) (proto : Byte) (payload : List Byte) : EncodeFormat.Statement (.icmpOther n proto payload) := fun _ => rfl
theorem EncodeFormat.fWrbytes (data : List Byte) : EncodeFormat.Statement (.fWrbytes data) := fun _ => rfl
theorem EncodeFormat.fRdbytes (count : Half) : EncodeFormat.Statement (.fRdbytes count) := fun _ => rfl
theorem EncodeFormat.fSetaddr (addr : Half) : EncodeFormat.Statement (.fSetaddr addr) := fun _ => rfl
theorem EncodeFormat.fGetaddr : EncodeFormat.Statement (.fGetaddr) := fun _ => rfl
theorem EncodeFormat.fRdtimer : EncodeFormat.Statement (.fRdtimer) := fun _ => rfl
theorem EncodeFormat.fWrip (slot : Byte) (ip : Quad) : EncodeFormat.Statement (.fWrip slot ip) := fun _ => rfl
theorem EncodeFormat.fRdip (slot : Byte) : EncodeFormat.Statement (.fRdip slot) := fun _ => rfl
theorem EncodeFormat.fPortno : EncodeFormat.Statement (.fPortno) := fun _ => rfl
theorem EncodeFormat.fSwver : EncodeFormat.Statement (.fSwver) := fun _ => rfl
theorem EncodeFormat.fHwver : EncodeFormat.Statement (.fHwver) := fun _ => rfl
theorem EncodeFormat.fLink : EncodeFormat.Statement (.fLink) := fun _ => rfl
theorem EncodeFormat.fId : EncodeFormat.Statement (.fId) := fun _ => rfl
theorem EncodeFormat.fErrcnt : EncodeFormat.Statement (.fErrcnt) := fun _ => rfl
theorem EncodeFormat.fUnknown (opcode : Byte) : EncodeFormat.Statement (.fUnknown opcode) := fun _ => rfl
theorem EncodeFormat.lifeSoft : EncodeFormat.Statement (.lifeSoft) := fun _ => rfl
theorem EncodeFormat.lifeColdOn : EncodeFormat.Statement (.lifeColdOn) := fun _ => rfl
theorem EncodeFormat.lifePowerOff : EncodeFormat.Statement (.lifePowerOff) := fun _ => rfl
theorem EncodeFormat.lifeDestroy : EncodeFormat.Statement (.lifeDestroy) := fun _ => rfl

end Sys2Proof.Laws
end

