-- ==== Sys2Proof/Laws/Resets.lean ====
section
/-! SUPPORT. What the resets leave: the stop of all sockets, the seeding and default lines, and their composition `SoftReset()`, field by field and byte by byte. -/

namespace Sys2Proof.Machine

open Sys2Proof

/-- A statement about some socket, spelled out. -/
theorem exists_sock (P : SockId → Prop) : (∃ n, P n) ↔ P 0 ∨ P 1 ∨ P 2 ∨ P 3 := by
  constructor
  · rintro ⟨n, h⟩
    match n with
    | 0 => exact .inl h
    | 1 => exact .inr (.inl h)
    | 2 => exact .inr (.inr (.inl h))
    | 3 => exact .inr (.inr (.inr h))
  · rintro (h | h | h | h)
    exacts [⟨0, h⟩, ⟨1, h⟩, ⟨2, h⟩, ⟨3, h⟩]

/-- One socket of a reset's first loop, in the tabled layout. -/
theorem State.load_stopSock_tabled (s : State) (h : s.cfg.Tabled) (n : SockId) (a : Nat) :
    (s.stopSock n).load a = if a = blockAddr n 0x01 then 0 else s.load a := by
  have e : sockAddr s.cfg.map n s.cfg.map.oCr = blockAddr n 0x01 := by rw [h.map]; exact sockAddr_tabled n _
  rw [State.load_stopSock, e]

/-- Four stores of zero, one for each socket, are one. -/
theorem ite_four_sockets (P : SockId → Prop) [DecidablePred P] (v w : Byte) :
    (if P 3 then v else if P 2 then v else if P 1 then v else if P 0 then v else w) =
      if ∃ n, P n then v else w := by
  simp only [exists_sock]
  by_cases h0 : P 0 <;> by_cases h1 : P 1 <;> by_cases h2 : P 2 <;> by_cases h3 : P 3 <;> simp [h0, h1, h2, h3]

/-- The four command bytes are cleared. -/
theorem State.load_stopAll (s : State) (h : s.cfg.Tabled) (a : Nat) :
    s.stopAll.load a = if ∃ n : SockId, a = blockAddr n 0x01 then 0 else s.load a := by
  rw [State.stopAll, State.load_stopSock_tabled _ (by simpa using h), State.load_stopSock_tabled _ (by simpa using h),
    State.load_stopSock_tabled _ (by simpa using h), State.load_stopSock_tabled _ h]
  exact ite_four_sockets (fun n => a = blockAddr n 0x01) 0 (s.load a)

theorem State.sock_stopAll (s : State) (m : SockId) : s.stopAll.sock m = Sock.reset := by
  simp only [State.stopAll, State.sock_stopSock]
  match m with
  | 0 => simp
  | 1 => simp
  | 2 => simp
  | 3 => simp

/-- The stored bytes `InitCursors` writes in a socket block: `TX_WR`, `RX_RD` (R201). -/
def cursorOffsets : List Nat := [0x24, 0x25, 0x28, 0x29]

/-- `InitCursors` of one socket, in the tabled layout. -/
theorem State.load_initCursors_tabled (s : State) (h : s.cfg.Tabled) (n : SockId) (a : Nat) :
    (s.initCursors n).load a = if ∃ off ∈ cursorOffsets, a = blockAddr n off then 0 else s.load a := by
  have e2 : sockAddr s.cfg.map n s.cfg.map.oTxWr = blockAddr n 0x24 := by rw [h.map]; exact sockAddr_tabled n _
  have e3 : sockAddr s.cfg.map n s.cfg.map.oRxRd = blockAddr n 0x28 := by rw [h.map]; exact sockAddr_tabled n _
  have e4 : blockAddr n 0x24 + 1 = blockAddr n 0x25 := rfl
  have e5 : blockAddr n 0x28 + 1 = blockAddr n 0x29 := rfl
  rw [State.load_initCursors, e2, e3, e4, e5]
  simp [cursorOffsets, or_assoc, or_comm]

/-- The four stored cursor bytes of every socket block are cleared. -/
theorem State.load_initAll (s : State) (h : s.cfg.Tabled) (a : Nat) :
    s.initAll.load a =
      if ∃ n : SockId, ∃ off ∈ cursorOffsets, a = blockAddr n off then 0 else s.load a := by
  rw [State.initAll, State.load_initCursors_tabled _ (by simpa using h),
    State.load_initCursors_tabled _ (by simpa using h), State.load_initCursors_tabled _ (by simpa using h),
    State.load_initCursors_tabled _ h]
  exact ite_four_sockets (fun n => ∃ off ∈ cursorOffsets, a = blockAddr n off) 0 (s.load a)

/-- `InitCursors` for every socket leaves the rest of each record. -/
theorem State.sock_initAll (s : State) (m : SockId) :
    s.initAll.sock m =
      { s.sock m with txRd := 0, txWr := 0, rxRd := 0, rxWr := 0, recvEnabled := false } := by
  simp only [State.initAll, State.sock_initCursors]
  match m with
  | 0 => simp
  | 1 => simp
  | 2 => simp
  | 3 => simp

@[simp] theorem State.load_emptySides (s : State) (a : Nat) : s.emptySides.load a = s.load a := rfl

@[simp] theorem State.sock_emptySides (s : State) (m : SockId) : s.emptySides.sock m = s.sock m := rfl

theorem State.stopSock_rest (s : State) (n : SockId) :
    s.stopSock n =
      { s with
        mem := (s.stopSock n).mem, socks := (s.stopSock n).socks
        netLog := s.netLog ++ ((s.sock n).conn.toList ++ (s.sock n).lsn.toList).map NetReq.close } := by
  have h := State.stopSock_eq s n
  have h2 := congrArg State.socks h
  rw [h2]
  exact h

theorem State.netLog_stopSock (s : State) (n : SockId) :
    (s.stopSock n).netLog = s.netLog ++ ((s.sock n).conn.toList ++ (s.sock n).lsn.toList).map NetReq.close :=
  congrArg State.netLog (State.stopSock_rest s n)
/-- Two frames in a row are a frame. -/
theorem frame_trans (s t u : State) (l l' : List NetReq)
    (h1 : t = { s with mem := t.mem, socks := t.socks, netLog := l })
    (h2 : u = { t with mem := u.mem, socks := u.socks, netLog := l' }) :
    u = { s with mem := u.mem, socks := u.socks, netLog := l' } := by
  rw [h2, h1]

/-- Every live handle is closed, nothing else but records and bytes changes. -/
theorem State.stopAll_rest (s : State) :
    s.stopAll = { s with
      mem := s.stopAll.mem, socks := s.stopAll.socks, netLog := s.netLog ++ s.closeRequests } := by
  generalize h1 : s.stopSock 0 = t1
  generalize h2 : t1.stopSock 1 = t2
  generalize h3 : t2.stopSock 2 = t3
  generalize h4 : t3.stopSock 3 = t4
  have r1 := State.stopSock_rest s 0; rw [h1] at r1
  have r2 := State.stopSock_rest t1 1; rw [h2] at r2
  have r3 := State.stopSock_rest t2 2; rw [h3] at r3
  have r4 := State.stopSock_rest t3 3; rw [h4] at r4
  have q := frame_trans _ _ _ _ _ (frame_trans _ _ _ _ _ (frame_trans _ _ _ _ _ r1 r2) r3) r4
  have e : s.stopAll = t4 := by rw [State.stopAll, h1, h2, h3, h4]
  have n1 := State.netLog_stopSock s 0; rw [h1] at n1
  have n2 := State.netLog_stopSock t1 1; rw [h2] at n2
  have n3 := State.netLog_stopSock t2 2; rw [h3] at n3
  have n4 := State.netLog_stopSock t3 3; rw [h4] at n4
  have s1 (m : SockId) : t1.sock m = if m = 0 then Sock.reset else s.sock m := by rw [← h1]; simp
  have s2 (m : SockId) : t2.sock m = if m = 1 then Sock.reset else t1.sock m := by rw [← h2]; simp
  have s3 (m : SockId) : t3.sock m = if m = 2 then Sock.reset else t2.sock m := by rw [← h3]; simp
  have nl : t4.netLog = s.netLog ++ s.closeRequests := by
    rw [n4, n3, n2, n1]
    simp [s1, s2, s3, State.closeRequests, State.liveHandles, List.finRange_succ]
  rw [e]
  rw [← n4, nl] at q
  exact q

/-- `InitCursors` for every socket changes records and bytes only. -/
theorem State.initAll_rest (s : State) : s.initAll = { s with mem := s.initAll.mem, socks := s.initAll.socks } := by
  simp [State.initAll, State.initCursors, State.setSock, State.pokeList]

/-! ## One lemma per field -/

@[simp] theorem State.seedRegs_socks (s : State) : s.seedRegs.socks = s.socks := rfl
@[simp] theorem State.seedRegs_dhcp (s : State) : s.seedRegs.dhcp = s.dhcp := rfl
@[simp] theorem State.seedRegs_pings (s : State) : s.seedRegs.pings = s.pings := rfl
@[simp] theorem State.seedRegs_prov (s : State) : s.seedRegs.prov = s.prov := rfl
@[simp] theorem State.seedRegs_released (s : State) : s.seedRegs.released = s.released := rfl
@[simp] theorem State.seedRegs_alive (s : State) : s.seedRegs.alive = s.alive := rfl
@[simp] theorem State.seedRegs_fa (s : State) : s.seedRegs.fa = s.fa := rfl
@[simp] theorem State.seedRegs_now (s : State) : s.seedRegs.now = s.now := rfl
@[simp] theorem State.seedRegs_seedIn (s : State) : s.seedRegs.seedIn = s.seedIn := rfl
@[simp] theorem State.seedRegs_linkIn (s : State) : s.seedRegs.linkIn = s.linkIn := rfl
@[simp] theorem State.seedRegs_portIn (s : State) : s.seedRegs.portIn = s.portIn := rfl
@[simp] theorem State.seedRegs_inputs (s : State) : s.seedRegs.inputs = s.inputs := rfl
@[simp] theorem State.seedRegs_rdata (s : State) : s.seedRegs.rdata = s.rdata := rfl
@[simp] theorem State.seedRegs_fdata (s : State) : s.seedRegs.fdata = s.fdata := rfl
@[simp] theorem State.seedRegs_fstatus (s : State) : s.seedRegs.fstatus = s.fstatus := rfl
@[simp] theorem State.seedRegs_notices (s : State) : s.seedRegs.notices = s.notices := rfl
@[simp] theorem State.seedRegs_netLog (s : State) : s.seedRegs.netLog = s.netLog := rfl
@[simp] theorem State.seedRegs_nextHandle (s : State) : s.seedRegs.nextHandle = s.nextHandle := rfl
@[simp] theorem State.seedRegs_freeUsed (s : State) : s.seedRegs.freeUsed = s.freeUsed := rfl
@[simp] theorem State.seedRegs_cfg (s : State) : s.seedRegs.cfg = s.cfg := rfl
@[simp] theorem State.seedRegs_seed (s : State) : s.seedRegs.seed = s.seedIn := rfl
@[simp] theorem State.seedRegs_sock (s : State) (m : SockId) : s.seedRegs.sock m = s.sock m := rfl

@[simp] theorem State.defaultRegs_socks (s : State) : s.defaultRegs.socks = s.socks := rfl
@[simp] theorem State.defaultRegs_dhcp (s : State) : s.defaultRegs.dhcp = s.dhcp := rfl
@[simp] theorem State.defaultRegs_pings (s : State) : s.defaultRegs.pings = s.pings := rfl
@[simp] theorem State.defaultRegs_prov (s : State) : s.defaultRegs.prov = s.prov := rfl
@[simp] theorem State.defaultRegs_released (s : State) : s.defaultRegs.released = s.released := rfl
@[simp] theorem State.defaultRegs_alive (s : State) : s.defaultRegs.alive = s.alive := rfl
@[simp] theorem State.defaultRegs_fa (s : State) : s.defaultRegs.fa = s.fa := rfl
@[simp] theorem State.defaultRegs_seed (s : State) : s.defaultRegs.seed = s.seed := rfl
@[simp] theorem State.defaultRegs_now (s : State) : s.defaultRegs.now = s.now := rfl
@[simp] theorem State.defaultRegs_seedIn (s : State) : s.defaultRegs.seedIn = s.seedIn := rfl
@[simp] theorem State.defaultRegs_linkIn (s : State) : s.defaultRegs.linkIn = s.linkIn := rfl
@[simp] theorem State.defaultRegs_portIn (s : State) : s.defaultRegs.portIn = s.portIn := rfl
@[simp] theorem State.defaultRegs_inputs (s : State) : s.defaultRegs.inputs = s.inputs := rfl
@[simp] theorem State.defaultRegs_rdata (s : State) : s.defaultRegs.rdata = s.rdata := rfl
@[simp] theorem State.defaultRegs_fdata (s : State) : s.defaultRegs.fdata = s.fdata := rfl
@[simp] theorem State.defaultRegs_fstatus (s : State) : s.defaultRegs.fstatus = s.fstatus := rfl
@[simp] theorem State.defaultRegs_notices (s : State) : s.defaultRegs.notices = s.notices := rfl
@[simp] theorem State.defaultRegs_netLog (s : State) : s.defaultRegs.netLog = s.netLog := rfl
@[simp] theorem State.defaultRegs_nextHandle (s : State) : s.defaultRegs.nextHandle = s.nextHandle := rfl
@[simp] theorem State.defaultRegs_freeUsed (s : State) : s.defaultRegs.freeUsed = s.freeUsed := rfl
@[simp] theorem State.defaultRegs_cfg (s : State) : s.defaultRegs.cfg = s.cfg := rfl
@[simp] theorem State.defaultRegs_sock (s : State) (m : SockId) : s.defaultRegs.sock m = s.sock m := rfl

@[simp] theorem State.initAll_dhcp (s : State) : s.initAll.dhcp = s.dhcp := by simp [State.initAll]
@[simp] theorem State.initAll_pings (s : State) : s.initAll.pings = s.pings := by simp [State.initAll]
@[simp] theorem State.initAll_prov (s : State) : s.initAll.prov = s.prov := by simp [State.initAll]
@[simp] theorem State.initAll_released (s : State) : s.initAll.released = s.released := by simp [State.initAll]
@[simp] theorem State.initAll_alive (s : State) : s.initAll.alive = s.alive := by simp [State.initAll]
@[simp] theorem State.initAll_fa (s : State) : s.initAll.fa = s.fa := by simp [State.initAll]
@[simp] theorem State.initAll_seed (s : State) : s.initAll.seed = s.seed := by simp [State.initAll]
@[simp] theorem State.initAll_now (s : State) : s.initAll.now = s.now := by simp [State.initAll]
@[simp] theorem State.initAll_seedIn (s : State) : s.initAll.seedIn = s.seedIn := by simp [State.initAll]
@[simp] theorem State.initAll_linkIn (s : State) : s.initAll.linkIn = s.linkIn := by simp [State.initAll]
@[simp] theorem State.initAll_portIn (s : State) : s.initAll.portIn = s.portIn := by simp [State.initAll]
@[simp] theorem State.initAll_inputs (s : State) : s.initAll.inputs = s.inputs := by simp [State.initAll]
@[simp] theorem State.initAll_rdata (s : State) : s.initAll.rdata = s.rdata := by simp [State.initAll]
@[simp] theorem State.initAll_fdata (s : State) : s.initAll.fdata = s.fdata := by simp [State.initAll]
@[simp] theorem State.initAll_fstatus (s : State) : s.initAll.fstatus = s.fstatus := by simp [State.initAll]
@[simp] theorem State.initAll_notices (s : State) : s.initAll.notices = s.notices := by simp [State.initAll]
@[simp] theorem State.initAll_netLog (s : State) : s.initAll.netLog = s.netLog := by simp [State.initAll]
@[simp] theorem State.initAll_nextHandle (s : State) : s.initAll.nextHandle = s.nextHandle := by simp [State.initAll]
@[simp] theorem State.initAll_freeUsed (s : State) : s.initAll.freeUsed = s.freeUsed := by simp [State.initAll]
@[simp] theorem State.initAll_cfg (s : State) : s.initAll.cfg = s.cfg := by simp [State.initAll]

@[simp] theorem State.emptySides_mem (s : State) : s.emptySides.mem = s.mem := rfl
@[simp] theorem State.emptySides_socks (s : State) : s.emptySides.socks = s.socks := rfl
@[simp] theorem State.emptySides_dhcp (s : State) : s.emptySides.dhcp = none := rfl
@[simp] theorem State.emptySides_pings (s : State) : s.emptySides.pings = [] := rfl
@[simp] theorem State.emptySides_prov (s : State) : s.emptySides.prov = [] := rfl
@[simp] theorem State.emptySides_released (s : State) : s.emptySides.released = [] := rfl
@[simp] theorem State.emptySides_alive (s : State) : s.emptySides.alive = s.alive := rfl
@[simp] theorem State.emptySides_fa (s : State) : s.emptySides.fa = s.fa := rfl
@[simp] theorem State.emptySides_seed (s : State) : s.emptySides.seed = s.seed := rfl
@[simp] theorem State.emptySides_now (s : State) : s.emptySides.now = s.now := rfl
@[simp] theorem State.emptySides_seedIn (s : State) : s.emptySides.seedIn = s.seedIn := rfl
@[simp] theorem State.emptySides_linkIn (s : State) : s.emptySides.linkIn = s.linkIn := rfl
@[simp] theorem State.emptySides_portIn (s : State) : s.emptySides.portIn = s.portIn := rfl
@[simp] theorem State.emptySides_inputs (s : State) : s.emptySides.inputs = s.inputs := rfl
@[simp] theorem State.emptySides_rdata (s : State) : s.emptySides.rdata = s.rdata := rfl
@[simp] theorem State.emptySides_fdata (s : State) : s.emptySides.fdata = s.fdata := rfl
@[simp] theorem State.emptySides_fstatus (s : State) : s.emptySides.fstatus = s.fstatus := rfl
@[simp] theorem State.emptySides_notices (s : State) : s.emptySides.notices = s.notices := rfl
@[simp] theorem State.emptySides_netLog (s : State) : s.emptySides.netLog = s.netLog := rfl
@[simp] theorem State.emptySides_nextHandle (s : State) : s.emptySides.nextHandle = s.nextHandle := rfl
@[simp] theorem State.emptySides_freeUsed (s : State) : s.emptySides.freeUsed = s.freeUsed := rfl
@[simp] theorem State.emptySides_cfg (s : State) : s.emptySides.cfg = s.cfg := rfl

@[simp] theorem State.stopAll_dhcp (s : State) : s.stopAll.dhcp = s.dhcp := by rw [State.stopAll_rest]
@[simp] theorem State.stopAll_pings (s : State) : s.stopAll.pings = s.pings := by rw [State.stopAll_rest]
@[simp] theorem State.stopAll_prov (s : State) : s.stopAll.prov = s.prov := by rw [State.stopAll_rest]
@[simp] theorem State.stopAll_released (s : State) : s.stopAll.released = s.released := by rw [State.stopAll_rest]
@[simp] theorem State.stopAll_alive (s : State) : s.stopAll.alive = s.alive := by rw [State.stopAll_rest]
@[simp] theorem State.stopAll_fa (s : State) : s.stopAll.fa = s.fa := by rw [State.stopAll_rest]
@[simp] theorem State.stopAll_seed (s : State) : s.stopAll.seed = s.seed := by rw [State.stopAll_rest]
@[simp] theorem State.stopAll_now (s : State) : s.stopAll.now = s.now := by rw [State.stopAll_rest]
@[simp] theorem State.stopAll_seedIn (s : State) : s.stopAll.seedIn = s.seedIn := by rw [State.stopAll_rest]
@[simp] theorem State.stopAll_linkIn (s : State) : s.stopAll.linkIn = s.linkIn := by rw [State.stopAll_rest]
@[simp] theorem State.stopAll_portIn (s : State) : s.stopAll.portIn = s.portIn := by rw [State.stopAll_rest]
@[simp] theorem State.stopAll_inputs (s : State) : s.stopAll.inputs = s.inputs := by rw [State.stopAll_rest]
@[simp] theorem State.stopAll_rdata (s : State) : s.stopAll.rdata = s.rdata := by rw [State.stopAll_rest]
@[simp] theorem State.stopAll_fdata (s : State) : s.stopAll.fdata = s.fdata := by rw [State.stopAll_rest]
@[simp] theorem State.stopAll_fstatus (s : State) : s.stopAll.fstatus = s.fstatus := by rw [State.stopAll_rest]
@[simp] theorem State.stopAll_notices (s : State) : s.stopAll.notices = s.notices := by rw [State.stopAll_rest]
@[simp] theorem State.stopAll_netLog (s : State) : s.stopAll.netLog = s.netLog ++ s.closeRequests := by rw [State.stopAll_rest]
@[simp] theorem State.stopAll_nextHandle (s : State) : s.stopAll.nextHandle = s.nextHandle := by rw [State.stopAll_rest]
@[simp] theorem State.stopAll_freeUsed (s : State) : s.stopAll.freeUsed = s.freeUsed := by rw [State.stopAll_rest]
@[simp] theorem State.stopAll_cfg (s : State) : s.stopAll.cfg = s.cfg := by rw [State.stopAll_rest]

@[simp] theorem State.softReset_dhcp (s : State) : s.softReset.dhcp = none := by simp [State.softReset]
@[simp] theorem State.softReset_pings (s : State) : s.softReset.pings = [] := by simp [State.softReset]
@[simp] theorem State.softReset_prov (s : State) : s.softReset.prov = [] := by simp [State.softReset]
@[simp] theorem State.softReset_released (s : State) : s.softReset.released = [] := by simp [State.softReset]
@[simp] theorem State.softReset_alive (s : State) : s.softReset.alive = s.alive := by simp [State.softReset]
@[simp] theorem State.softReset_fa (s : State) : s.softReset.fa = s.fa := by simp [State.softReset]
@[simp] theorem State.softReset_seed (s : State) : s.softReset.seed = s.seedIn := by simp [State.softReset]
@[simp] theorem State.softReset_now (s : State) : s.softReset.now = s.now := by simp [State.softReset]
@[simp] theorem State.softReset_seedIn (s : State) : s.softReset.seedIn = s.seedIn := by simp [State.softReset]
@[simp] theorem State.softReset_linkIn (s : State) : s.softReset.linkIn = s.linkIn := by simp [State.softReset]
@[simp] theorem State.softReset_portIn (s : State) : s.softReset.portIn = s.portIn := by simp [State.softReset]
@[simp] theorem State.softReset_inputs (s : State) : s.softReset.inputs = s.inputs := by simp [State.softReset]
@[simp] theorem State.softReset_rdata (s : State) : s.softReset.rdata = s.rdata := by simp [State.softReset]
@[simp] theorem State.softReset_fdata (s : State) : s.softReset.fdata = s.fdata := by simp [State.softReset]
@[simp] theorem State.softReset_fstatus (s : State) : s.softReset.fstatus = s.fstatus := by simp [State.softReset]
@[simp] theorem State.softReset_notices (s : State) : s.softReset.notices = s.notices := by simp [State.softReset]
@[simp] theorem State.softReset_netLog (s : State) : s.softReset.netLog = s.netLog ++ s.closeRequests := by simp [State.softReset]
@[simp] theorem State.softReset_nextHandle (s : State) : s.softReset.nextHandle = s.nextHandle := by simp [State.softReset]
@[simp] theorem State.softReset_freeUsed (s : State) : s.softReset.freeUsed = s.freeUsed := by simp [State.softReset]
@[simp] theorem State.softReset_cfg (s : State) : s.softReset.cfg = s.cfg := by simp [State.softReset]
@[simp] theorem State.softReset_sock (s : State) (m : SockId) : s.softReset.sock m = Sock.reset := by
  simp [State.softReset, State.sock_initAll, State.sock_stopAll, Sock.reset]

/-! ## Bytes -/

theorem State.load_pokeList_four (s : State) (a b : Nat) (w x y z : Byte) :
    (s.pokeList a [w, x, y, z]).load b =
      if b = a + 3 then z else if b = a + 2 then y else if b = a + 1 then x else if b = a then w else s.load b := by
  simp [State.pokeList, State.load, Memory.writeList, Memory.read_write]

theorem State.load_pokeList_six (s : State) (a b : Nat) (w x y z u v : Byte) :
    (s.pokeList a [w, x, y, z, u, v]).load b =
      if b = a + 5 then v else if b = a + 4 then u else if b = a + 3 then z else if b = a + 2 then y
      else if b = a + 1 then x else if b = a then w else s.load b := by
  simp [State.pokeList, State.load, Memory.writeList, Memory.read_write]

theorem State.load_withSeed (s : State) (d : Seed) (b : Nat) : ({ s with seed := d } : State).load b = s.load b :=
  rfl

theorem State.load_seedRegs (s : State) (h : s.cfg.Tabled) (a : Nat) :
    s.seedRegs.load a =
      if a = 0x0012 then s.seedIn.ip.d else
      if a = 0x0011 then s.seedIn.ip.c else
      if a = 0x0010 then s.seedIn.ip.b else
      if a = 0x000F then s.seedIn.ip.a else
      if a = 0x000E then s.seedIn.mac.f else
      if a = 0x000D then s.seedIn.mac.e else
      if a = 0x000C then s.seedIn.mac.d else
      if a = 0x000B then s.seedIn.mac.c else
      if a = 0x000A then s.seedIn.mac.b else
      if a = 0x0009 then s.seedIn.mac.a else
      if a = 0x0008 then s.seedIn.subnet.d else
      if a = 0x0007 then s.seedIn.subnet.c else
      if a = 0x0006 then s.seedIn.subnet.b else
      if a = 0x0005 then s.seedIn.subnet.a else
      if a = 0x0004 then s.seedIn.gateway.d else
      if a = 0x0003 then s.seedIn.gateway.c else
      if a = 0x0002 then s.seedIn.gateway.b else
      if a = 0x0001 then s.seedIn.gateway.a else s.load a := by
  simp only [State.seedRegs, quadBytes, macBytes, State.load_pokeList_four, State.load_pokeList_six,
    State.load_withSeed, h.map, Config.AddressMap.cGar, Config.AddressMap.cSubr, Config.AddressMap.cShar,
    Config.AddressMap.cSipr, Config.AddressMap.tabled, Nat.zero_add, Nat.reduceAdd]

theorem State.load_defaultRegs (s : State) (h : s.cfg.Tabled) (a : Nat) :
    s.defaultRegs.load a =
      if a = 0x0028 then s.cfg.resetPtimer else
      if a = 0x001B then s.cfg.resetTmsr else
      if a = 0x001A then s.cfg.resetRmsr else
      if a = 0x0019 then s.cfg.resetRcr else
      if a = 0x0018 then loByte s.cfg.resetRtr else
      if a = 0x0017 then hiByte s.cfg.resetRtr else s.load a := by
  simp only [State.defaultRegs, halfBytes, State.load_poke, State.load_pokeList_two, h.map, Config.AddressMap.cRtr,
    Config.AddressMap.cRcr, Config.AddressMap.cRmsr, Config.AddressMap.cTmsr,
    Config.AddressMap.cPtimer, Config.AddressMap.tabled, Nat.zero_add, Nat.reduceAdd]

/-- Every byte after `SoftReset()`, in the tabled layout. -/
theorem State.load_softReset (s : State) (h : s.cfg.Tabled) (a : Nat) :
    s.softReset.load a =
      if ∃ n : SockId, ∃ off ∈ cursorOffsets, a = blockAddr n off then 0 else
      if a = 0x0028 then s.cfg.resetPtimer else
      if a = 0x001B then s.cfg.resetTmsr else
      if a = 0x001A then s.cfg.resetRmsr else
      if a = 0x0019 then s.cfg.resetRcr else
      if a = 0x0018 then loByte s.cfg.resetRtr else
      if a = 0x0017 then hiByte s.cfg.resetRtr else
      if a = 0x0012 then s.seedIn.ip.d else
      if a = 0x0011 then s.seedIn.ip.c else
      if a = 0x0010 then s.seedIn.ip.b else
      if a = 0x000F then s.seedIn.ip.a else
      if a = 0x000E then s.seedIn.mac.f else
      if a = 0x000D then s.seedIn.mac.e else
      if a = 0x000C then s.seedIn.mac.d else
      if a = 0x000B then s.seedIn.mac.c else
      if a = 0x000A then s.seedIn.mac.b else
      if a = 0x0009 then s.seedIn.mac.a else
      if a = 0x0008 then s.seedIn.subnet.d else
      if a = 0x0007 then s.seedIn.subnet.c else
      if a = 0x0006 then s.seedIn.subnet.b else
      if a = 0x0005 then s.seedIn.subnet.a else
      if a = 0x0004 then s.seedIn.gateway.d else
      if a = 0x0003 then s.seedIn.gateway.c else
      if a = 0x0002 then s.seedIn.gateway.b else
      if a = 0x0001 then s.seedIn.gateway.a else
      if a = 0x0000 then 0 else
      if ∃ n : SockId, a = blockAddr n 0x01 then 0 else s.load a := by
  rw [State.softReset, State.load_emptySides, State.load_initAll _ (by simpa using h),
    State.load_defaultRegs _ (by simpa using h), State.load_seedRegs _ (by simpa using h), State.load_poke,
    State.load_stopAll _ h]
  simp only [State.seedRegs_cfg, State.stopAll_cfg, State.poke_cfg, State.poke_seedIn, State.stopAll_seedIn, h.map,
    Config.AddressMap.cMr, Config.AddressMap.tabled, Nat.zero_add]

/-! ## What each reset leaves

To use these, give the state after the reset a name first (`generalize h : s.softReset = u`): unfolding a reset to
compare two states field by field is long. -/

theorem State.load_withFa (s : State) (f : Facade) (a : Nat) : ({ s with fa := f } : State).load a = s.load a := rfl

theorem State.sock_withFa (s : State) (f : Facade) (n : SockId) : ({ s with fa := f } : State).sock n = s.sock n := rfl

theorem State.load_withAlive (s : State) (b : Bool) (a : Nat) : ({ s with alive := b } : State).load a = s.load a := rfl

theorem State.sock_withAlive (s : State) (b : Bool) (n : SockId) :
    ({ s with alive := b } : State).sock n = s.sock n := rfl

theorem State.sock_withMem (s : State) (m : Memory) (n : SockId) : ({ s with mem := m } : State).sock n = s.sock n :=
  rfl

/-- `InitCursors` changes nothing in a reset record. -/
theorem Sock.reset_cursors :
    ({ Sock.reset with txRd := 0, txWr := 0, rxRd := 0, rxWr := 0, recvEnabled := false } : Sock) = Sock.reset := rfl

/-- `SoftReset()` changes bytes and records, empties the side structures, samples the seed, closes the live handles, and
nothing else. -/
theorem State.softReset_rest (s : State) :
    s.softReset = { s with
      mem := s.softReset.mem, socks := s.softReset.socks, dhcp := none, pings := [], prov := [], released := []
      seed := s.seedIn, netLog := s.netLog ++ s.closeRequests } := by
  simp only [State.softReset, State.emptySides]
  rw [State.initAll_rest]
  simp [State.defaultRegs, State.seedRegs, State.poke, State.pokeList]

@[simp] theorem State.sock_powerOff (s : State) (n : SockId) : s.powerOff.sock n = Sock.reset := by
  unfold State.powerOff State.resetFacade
  rw [State.sock_withFa, State.sock_initAll, State.sock_withMem, State.sock_emptySides, State.sock_stopAll,
    Sock.reset_cursors]

/-- Power-off leaves every byte zero. -/
theorem State.load_powerOff (s : State) (h : s.cfg.Tabled) (a : Nat) : s.powerOff.load a = 0 := by
  unfold State.powerOff State.resetFacade
  rw [State.load_withFa, State.load_initAll _ (by simpa using h)]
  split
  · rfl
  · rfl

/-- Power-off changes bytes, records and facade, empties the side structures, closes the live handles, and nothing
else. -/
theorem State.powerOff_rest (s : State) :
    s.powerOff = { s with
      mem := s.powerOff.mem, socks := s.powerOff.socks, dhcp := none, pings := [], prov := [], released := []
      netLog := s.netLog ++ s.closeRequests, fa := Facade.reset s.now } := by
  have h1 := State.initAll_rest { s.stopAll.emptySides with mem := [] }
  have h2 := State.stopAll_rest s
  unfold State.powerOff State.resetFacade
  simp only [State.emptySides] at *
  generalize s.stopAll = w at *
  generalize State.initAll _ = v at *
  rw [h1, h2]

@[simp] theorem State.sock_destroy (s : State) (n : SockId) : s.destroy.sock n = Sock.reset := by
  unfold State.destroy
  rw [State.sock_withAlive, State.sock_emptySides, State.sock_initAll, State.defaultRegs_sock, State.poke_sock,
    State.sock_stopAll, Sock.reset_cursors]

/-- Every byte after `destroy`, in the tabled layout. -/
theorem State.load_destroy (s : State) (h : s.cfg.Tabled) (a : Nat) :
    s.destroy.load a =
      if ∃ n : SockId, ∃ off ∈ cursorOffsets, a = blockAddr n off then 0 else
      if a = 0x0028 then s.cfg.resetPtimer else
      if a = 0x001B then s.cfg.resetTmsr else
      if a = 0x001A then s.cfg.resetRmsr else
      if a = 0x0019 then s.cfg.resetRcr else
      if a = 0x0018 then loByte s.cfg.resetRtr else
      if a = 0x0017 then hiByte s.cfg.resetRtr else
      if a = 0x0000 then 0 else
      if ∃ n : SockId, a = blockAddr n 0x01 then 0 else s.load a := by
  unfold State.destroy
  rw [State.load_withAlive, State.load_emptySides, State.load_initAll _ (by simpa using h),
    State.load_defaultRegs _ (by simpa using h), State.load_poke, State.load_stopAll _ h]
  simp only [State.stopAll_cfg, State.poke_cfg, h.map, Config.AddressMap.cMr, Config.AddressMap.tabled, Nat.zero_add]

/-- `destroy` changes bytes and records, empties the side structures, closes the live handles, ends `alive`, and
nothing else. -/
theorem State.destroy_rest (s : State) :
    s.destroy = { s with
      mem := s.destroy.mem, socks := s.destroy.socks, dhcp := none, pings := [], prov := [], released := []
      netLog := s.netLog ++ s.closeRequests, alive := false } := by
  have h1 := State.initAll_rest ((s.stopAll.poke s.cfg.map.cMr 0x00).defaultRegs)
  have h2 := State.stopAll_rest s
  unfold State.destroy State.emptySides
  generalize s.stopAll = w at *
  simp only [State.defaultRegs, State.poke, State.pokeList] at *
  generalize State.initAll _ = v at *
  rw [h1, h2]

end Sys2Proof.Machine
end

