-- ==== Sys2Proof/Tests/Slice0.lean ====
section
/-! SUPPORT. Tests of one step each, against the vectors V1 to V83 and the programs of spec/95_test_vectors.md and
against words written out from spec/30_encoding.md; a refused ill-formed term for every check of `Instr.wf`; and for
every obligation with hypotheses a state and operands that meet them together. -/

namespace Sys2Proof.Tests

-- One thread: each kernel evaluation below would otherwise take one of its own.
set_option Elab.async false

open Sys2Proof Sys2Proof.Machine

/-! ## Helpers -/

/-- The state a result leads to; a stop leads to a state no test expects. -/
def after (r : Result) : State :=
  match r with
  | .next s => s
  | _ => { State.reset with alive := false, rdata := 0xEE }

/-- Why a result refuses. -/
def refusal (r : Result) : Option Refusal :=
  match r with
  | .refused e => some e
  | _ => none

/-- Store bytes of the window. -/
def poked (s : State) (cells : List (Nat × Byte)) : State := cells.foldl (fun t c => t.poke c.1 c.2) s

/-- An INIT socket. -/
def initSock : Sock := { Sock.reset with status := .init }

/-- A LISTEN socket with its operation in flight. -/
def listenSock : Sock := { Sock.reset with status := .listen, op := .listen }

/-- A connected and armed TCP socket. -/
def tcpSock : Sock := { Sock.reset with status := .established, conn := some 0, recvEnabled := true }

/-- A bound and armed UDP socket. -/
def udpSock : Sock := { Sock.reset with status := .udp, conn := some 0, recvEnabled := true }

/-- An armed IPRAW socket. -/
def rawSock : Sock := { Sock.reset with status := .ipraw, recvEnabled := true }

/-- Reset, with socket n's record replaced and one handle handed out. -/
def withSock (n : SockId) (k : Sock) : State := { State.reset.setSock n k with nextHandle := 1 }

/-- V30, a DISCOVER of 244 bytes, with xid `x` and the bytes `tail` from 240 on. -/
def frame (x : List Byte) (ci : List Byte) (tail : List Byte) : List Byte :=
  [0x01, 0x01, 0x06, 0x00] ++ x ++ [0x00, 0x00, 0x80, 0x00] ++ ci ++ List.replicate 12 0x00
    ++ [0xAA, 0xBB, 0xCC, 0xDD, 0xEE, 0xFF] ++ List.replicate 202 0x00 ++ [0x63, 0x82, 0x53, 0x63] ++ tail

/-- V30. -/
def v30 : List Byte := frame [0x11, 0x22, 0x33, 0x44] [0, 0, 0, 0] [0x35, 0x01, 0x01, 0xFF]

/-- V32. -/
def v32 : List Byte :=
  frame [0x11, 0x22, 0x33, 0x44] [0, 0, 0, 0]
    [0x35, 0x01, 0x03, 0x36, 0x04, 0xC0, 0xA8, 0x01, 0x01, 0x32, 0x04, 0xC0, 0xA8, 0x01, 0x32, 0xFF]

/-- The fields of V30. -/
def f30 : DhcpFrame :=
  { htype := 0x01, hlen := 0x06, xid := ⟨0x11, 0x22, 0x33, 0x44⟩, flags := 0x8000, ciaddr := ⟨0, 0, 0, 0⟩
    chaddr := [0xAA, 0xBB, 0xCC, 0xDD, 0xEE, 0xFF] ++ List.replicate 10 0x00, msgtype := 0x01, serverId := none }

/-- The fields of V32. -/
def f32 : DhcpFrame := { f30 with msgtype := 0x03, serverId := some ⟨0xC0, 0xA8, 0x01, 0x01⟩ }

/-- V31, the OFFER. -/
def v31 : List Byte :=
  [0x02, 0x01, 0x06, 0x00, 0x11, 0x22, 0x33, 0x44, 0x00, 0x00, 0x80, 0x00, 0x00, 0x00, 0x00, 0x00,
   0xC0, 0xA8, 0x01, 0x32, 0xC0, 0xA8, 0x01, 0x01, 0x00, 0x00, 0x00, 0x00]
    ++ [0xAA, 0xBB, 0xCC, 0xDD, 0xEE, 0xFF] ++ List.replicate 202 0x00
    ++ [0x63, 0x82, 0x53, 0x63, 0x35, 0x01, 0x02, 0x36, 0x04, 0xC0, 0xA8, 0x01, 0x01,
        0x33, 0x04, 0x00, 0x01, 0x51, 0x80, 0x01, 0x04, 0xFF, 0xFF, 0xFF, 0x00,
        0x03, 0x04, 0xC0, 0xA8, 0x01, 0x01, 0x06, 0x04, 0xC0, 0xA8, 0x01, 0x01, 0xFF]
    ++ List.replicate 26 0x00

/-- The exchange V30 creates at 5000 on socket 0 (V34). -/
def x34 : DhcpExchange :=
  { state := .awaitingRequest, clientIp := ⟨0xC0, 0xA8, 0x01, 0x32⟩, serverIp := ⟨0xC0, 0xA8, 0x01, 0x01⟩
    xid := ⟨0x11, 0x22, 0x33, 0x44⟩, chaddr := f30.chaddr, buf := v31, deliverable := true, deadline := 6000
    sock := 0 }

/-- That exchange outstanding at time `now`, socket 0 bound. -/
def dhcpAt (now : Nat) : State := { withSock 0 udpSock with dhcp := some x34, now := now }

/-- Peer of socket n: 255.255.255.255. -/
def toAll (n : SockId) (s : State) : State :=
  poked s [(blockAddr n 0x0C, 0xFF), (blockAddr n 0x0D, 0xFF), (blockAddr n 0x0E, 0xFF), (blockAddr n 0x0F, 0xFF)]

/-- Peer of socket n: 192.168.1.d. -/
def toHost (n : SockId) (d : Byte) (s : State) : State :=
  poked s [(blockAddr n 0x0C, 0xC0), (blockAddr n 0x0D, 0xA8), (blockAddr n 0x0E, 0x01), (blockAddr n 0x0F, d)]

/-- V40, an echo request. -/
def v40 : List Byte := [0x08, 0x00, 0x33, 0x37, 0x00, 0x01, 0x00, 0x01, 0x61, 0x62, 0x63, 0x64]

/-- A reached ping for 192.168.1.1 (V48). -/
def g48 : Ping := { target := ⟨0xC0, 0xA8, 0x01, 0x01⟩, payload := v40, outcome := .reachable }

/-- V48 before the delivery. -/
def s48 : State := { toHost 2 0x01 (State.reset.setSock 2 rawSock) with pings := [g48] }

/-- The bytes the ring of a socket shows from an address on. -/
def bytesAt (s : State) (a k : Nat) : List Byte := (List.range k).map (fun i => s.load (a + i))


/-! ## Ill-formed terms are refused (30_encoding.md R110 to R125) -/

theorem test_wf_refuses_wr_at_C_MR : Instr.wf Config.defaults (.wr 0x0000 0x80) = false := by decide +kernel

theorem test_wf_refuses_wr_at_C_IR : Instr.wf Config.defaults (.wr 0x0015 0x00) = false := by decide +kernel

theorem test_wf_refuses_wr_at_Sn_CR : Instr.wf Config.defaults (.wr 0x0701 0x01) = false := by decide +kernel

theorem test_wf_refuses_wr_at_Sn_IR : Instr.wf Config.defaults (.wr 0x0402 0x01) = false := by decide +kernel

theorem test_wf_refuses_wr_at_Sn_SR : Instr.wf Config.defaults (.wr 0x0503 0x17) = false := by decide +kernel

theorem test_wf_refuses_wr_at_TX_WR_LO : Instr.wf Config.defaults (.wr 0x0625 0x01) = false := by decide +kernel

theorem test_wf_refuses_wr_at_RX_RD_LO : Instr.wf Config.defaults (.wr 0x0729 0x01) = false := by decide +kernel

theorem test_wf_refuses_known_code : Instr.wf Config.defaults (.scmdUnrecognised 0 0x40) = false := by decide +kernel

theorem test_wf_refuses_named_nibble : Instr.wf Config.defaults (.smodeOther 0 0 5) = false := by decide +kernel

theorem test_wf_refuses_rxTcp_none : Instr.wf Config.defaults (.rxTcp 0 [0x41] 0) = false := by decide +kernel

theorem test_wf_refuses_rxTcp_more_than_there :
    Instr.wf Config.defaults (.rxTcp 0 [0x41] 2) = false := by decide +kernel

theorem test_wf_refuses_discover_type : Instr.wf Config.defaults (.dhcpDiscover 0 f32) = false := by decide +kernel

theorem test_wf_refuses_discover_chaddr :
    Instr.wf Config.defaults (.dhcpDiscover 0 { f30 with chaddr := [] }) = false := by decide +kernel

theorem test_wf_refuses_request_type : Instr.wf Config.defaults (.dhcpRequest 0 f30) = false := by decide +kernel

theorem test_wf_refuses_other_type : Instr.wf Config.defaults (.dhcpOther 0 f30) = false := by decide +kernel

theorem test_wf_refuses_invalid_of_valid : Instr.wf Config.defaults (.dhcpInvalid 0 v30) = false := by decide +kernel

theorem test_wf_refuses_echo_short :
    Instr.wf Config.defaults (.icmpEchoRequest 0 [0x08, 0x00, 0x00]) = false := by decide +kernel

theorem test_wf_refuses_other_of_echo : Instr.wf Config.defaults (.icmpOther 0 0x01 v40) = false := by decide +kernel

theorem test_wf_refuses_wrbytes_count :
    Instr.wf Config.defaults (.fWrbytes (List.replicate 65536 0x00)) = false := by
  rw [Instr.wf, List.length_replicate]
  decide

theorem test_wf_refuses_known_opcode : Instr.wf Config.defaults (.fUnknown 0x0C) = false := by decide +kernel

theorem test_wf_accepts :
    ([.wr 0x0030 0xAB, .wr 0x0424 0x01, .scmdUnrecognised 0 0x41, .smodeOther 0 0 6, .rxTcp 0 [0x41] 1,
      .dhcpDiscover 0 f30, .dhcpRequest 0 f32, .dhcpInvalid 0 [], .icmpEchoRequest 0 v40, .icmpOther 0 0x11 v40,
      .fUnknown 0x0D] : List Instr).all (Instr.wf Config.defaults) = true := by decide +kernel


/-! ## Words written out from the encodings decode to their instruction -/

/-! BUS (30_encoding.md R111): bit 24 write, bits 23:8 address, bits 7:0 data. -/

theorem test_decode_RD : decodeBus .tabled 0b0000001000000001100000000 = .rd 0x0403 := by decide +kernel

theorem test_decode_WR : decodeBus .tabled 0b1010000000000000001001000 = .wr 0x4000 0x48 := by decide +kernel

theorem test_decode_WR_C_MR : decodeBus .tabled 0b1000000000000000010000000 = .wrCMr 0x80 := by decide +kernel

theorem test_decode_WR_C_IR : decodeBus .tabled 0b1000000000001010111111111 = .wrCIr 0xFF := by decide +kernel

theorem test_decode_WR_Sn_CR : decodeBus .tabled 0b1000001010000000100000001 = .wrSnCr 1 0x01 := by decide +kernel

theorem test_decode_WR_Sn_IR : decodeBus .tabled 0b1000001000000001000010000 = .wrSnIr 0 0x10 := by decide +kernel

theorem test_decode_WR_Sn_SR : decodeBus .tabled 0b1000001110000001100010111 = .wrSnSr 3 0x17 := by decide +kernel

theorem test_decode_WR_Sn_TX_WR_LO :
    decodeBus .tabled 0b1000001000010010100000101 = .wrSnTxWrLo 0 0x05 := by decide +kernel

theorem test_decode_WR_Sn_RX_RD_LO :
    decodeBus .tabled 0b1000001100010100100010010 = .wrSnRxRdLo 2 0x12 := by decide +kernel

/-! SCMD (R112, R113) and SMODE (R116). -/

theorem test_decode_SCMD :
    [0x00, 0x01, 0x02, 0x04, 0x08, 0x10, 0x20, 0x21, 0x22, 0x40, 0x03, 0xFF].map (decodeScmd .tabled 2) =
    [.scmdNone 2, .scmdOpen 2, .scmdListen 2, .scmdConnect 2, .scmdDiscon 2, .scmdClose 2, .scmdSend 2, .scmdSendMac 2,
      .scmdSendKeep 2, .scmdRecv 2, .scmdUnrecognised 2 0x03, .scmdUnrecognised 2 0xFF] := by decide +kernel

theorem test_decode_SMODE :
    [0b00000001, 0b10000010, 0b01000011, 0b00100100, 0b11110101, 0b00010000, 0b10001111].map (decodeSmode .tabled 3) =
    [.smodeTcp 3 0, .smodeUdp 3 8, .smodeIpraw 3 4, .smodeMacraw 3 2, .smodePppoe 3 15, .smodeOther 3 1 0,
      .smodeOther 3 8 15] := by decide +kernel

/-! DHCPIN (R123, R124) and ICMPIN (46_icmp_echo.md R341). -/

/-- V30. -/
theorem test_decode_DHCP_DISCOVER : decodeDhcp 0 v30 = .dhcpDiscover 0 f30 := by decide +kernel

/-- V32. -/
theorem test_decode_DHCP_REQUEST : decodeDhcp 1 v32 = .dhcpRequest 1 f32 := by decide +kernel

/-- A pad byte, then message type 8. -/
theorem test_decode_DHCP_OTHER :
    decodeDhcp 0 (frame [0x11, 0x22, 0x33, 0x44] [0, 0, 0, 0] [0x00, 0x35, 0x01, 0x08, 0xFF]) =
    .dhcpOther 0 { f30 with msgtype := 0x08 } := by decide +kernel

/-- V38, V38a; log 23. -/
theorem test_decode_DHCP_INVALID :
    (parseDhcp (v30.set 236 0x64)).isNone = true ∧ (parseDhcp (v30.take 239)).isNone = true
    ∧ (parseDhcp (((v30.set 240 0x00).set 241 0x00).set 242 0x00)).isNone = true
    ∧ (parseDhcp (frame [1, 2, 3, 4] [0, 0, 0, 0] [0x35, 0x02, 0x01, 0x01, 0x35, 0x01, 0x01])).isNone = true := by
  decide +kernel

/-- V40, V46, V44. -/
theorem test_decode_ICMP :
    decodeIcmp 2 0x01 v40 = .icmpEchoRequest 2 v40 ∧ decodeIcmp 2 0x11 v40 = .icmpOther 2 0x11 v40
    ∧ decodeIcmp 2 0x01 [0x08, 0x00, 0x00] = .icmpOther 2 0x01 [0x08, 0x00, 0x00] := by decide +kernel

/-! FCMD (R125, 47_firmware_facade.md R362), the agent steps and LIFE. -/

/-- V71, V72, V70, V73. -/
theorem test_decode_FCMD_args :
    decode Config.defaults (.fcmd [0x00, 0x02, 0x00, 0x00, 0x0A]) = .ok (.fWrbytes [0x00, 0x0A])
    ∧ decode Config.defaults (.fcmd [0x01, 0x03, 0x00]) = .ok (.fRdbytes 3) ∧ decode Config.defaults (.fcmd [0x02, 0x24, 0x04]) = .ok (.fSetaddr 0x0424)
    ∧ decode Config.defaults (.fcmd [0x05, 0x07, 0x0A, 0x00, 0x00, 0x01]) = .ok (.fWrip 7 ⟨0x0A, 0x00, 0x00, 0x01⟩)
    ∧ decode Config.defaults (.fcmd [0x06, 0x07]) = .ok (.fRdip 7) := by decide +kernel

theorem test_decode_FCMD_plain :
    [0x03, 0x04, 0x07, 0x08, 0x09, 0x0A, 0x0B, 0x0C, 0x7F].map (fun b => decode Config.defaults (.fcmd [b])) =
    [.ok .fGetaddr, .ok .fRdtimer, .ok .fPortno, .ok .fSwver, .ok .fHwver, .ok .fLink, .ok .fId, .ok .fErrcnt,
      .ok (.fUnknown 0x7F)] := by decide +kernel

theorem test_decode_FCMD_rejects :
    decode Config.defaults (.fcmd []) = .error .emptyCommand ∧ decode Config.defaults (.fcmd [0x02, 0x24]) = .error (.wrongArguments 0x02)
    ∧ decode Config.defaults (.fcmd [0x00, 0x02, 0x00, 0x00]) = .error (.wrongArguments 0x00) := by decide +kernel

theorem test_decode_EVENT :
    [Event.udpbindDone 0 .ok, .listenDone 1 .accepted ⟨true, 5⟩, .connectDone 2 .fail, .sendDone 3 true false, .closeDone 0,
      .rxTcp 1 [0x41] 1, .rxUdp 2 ⟨1, 2, 3, 4⟩ 53 [], .rxEof 3, .rxError 0 true, .rxDhcpDeliver 1, .rxIpraw 2,
      .probeDone 0 true, .pingExpire 1, .dhcpExpire].map decodeEvent =
    [.ctlUdpbindDone 0 .ok, .ctlListenDone 1 .accepted ⟨true, 5⟩, .ctlConnectDone 2 .fail, .ctlSendDone 3 true false,
      .ctlCloseDone 0, .rxTcp 1 [0x41] 1, .rxUdp 2 ⟨1, 2, 3, 4⟩ 53 [], .rxEof 3, .rxError 0 true, .rxDhcpDeliver 1,
      .rxIpraw 2, .probeDone 0 true, .pingExpire 1, .dhcpExpire] := by decide +kernel

theorem test_decode_LIFE :
    [LifeReq.soft, .coldOn, .powerOff, .destroy].map decodeLife = [.lifeSoft, .lifeColdOn, .lifePowerOff, .lifeDestroy] := by
  decide +kernel

theorem test_decodeTableWord :
    decodeTableWord 32 0x1040101 = some (.wrSnCr 0 0x01) ∧ decodeTableWord 8 0x21 = some (.scmdSendMac 0)
    ∧ decodeTableWord 8 0x05 = some (.fWrip 0 ⟨0, 0, 0, 0⟩) ∧ decodeTableWord 8 0x13 = some (.smodeIpraw 0 1)
    ∧ decodeTableWord 8 0xFF = some (.scmdUnrecognised 0 0xFF) := by decide +kernel


/-! ## Configurations (00_scope.md R6) -/

/-- The default configuration with socket blocks of 512 bytes from 0x1000 on, the command byte last in its block. -/
def movedMap : Config.AddressMap := { Config.AddressMap.tabled with sockBase := 0x1000, sockStride := 0x0200, oCr := 0x01FF }

/-- That map, a status byte of 0x55 for INIT, 0x77 for OPEN. -/
def movedCfg : Config.Params :=
  { Config.defaults with map := movedMap, codes := { Config.Codes.tabled with srInit := 0x55, cmdOpen := 0x77 } }

/-- A socket 1 in TCP mode under that configuration. -/
def movedState : State := poked { State.reset with cfg := movedCfg } [(0x1200, 0x01)]

theorem test_cfg_wf : Config.defaults.wf = true ∧ movedCfg.wf = true := by decide +kernel

theorem test_cfg_refuses_overlapping_registers :
    Config.Params.wf ({ Config.defaults with map := { Config.AddressMap.tabled with oCr := 0x03 } }) = false := by
  decide +kernel

theorem test_cfg_refuses_overlapping_blocks :
    Config.Params.wf ({ Config.defaults with map := { Config.AddressMap.tabled with sockStride := 0x0020 } }) = false := by
  decide +kernel

theorem test_cfg_refuses_a_bank_outside :
    Config.Params.wf ({ Config.defaults with map := { Config.AddressMap.tabled with bankSize := 0x2001 } }) = false := by
  decide +kernel

theorem test_cfg_refuses_a_narrow_bus :
    Config.Params.wf ({ Config.defaults with map := { Config.AddressMap.tabled with addrW := 15 } }) = false := by
  decide +kernel

theorem test_cfg_refuses_equal_commands :
    Config.Params.wf ({ Config.defaults with codes := { Config.Codes.tabled with cmdRecv := 0x20 } }) = false := by
  decide +kernel

theorem test_cfg_refuses_a_two_bit_mask :
    Config.Params.wf ({ Config.defaults with codes := { Config.Codes.tabled with intCon := 0x60 } }) = false := by
  decide +kernel

theorem test_cfg_refuses_equal_opcodes :
    Config.Params.wf ({ Config.defaults with ops := { Config.Opcodes.tabled with link := 0x0B } }) = false := by
  decide +kernel

theorem test_cfg_refuses_a_short_frame :
    Config.Params.wf ({ Config.defaults with dhcpFrameLen := 273 }) = false := by decide +kernel

/-- The registers and codes follow the configuration. -/
theorem test_moved_OPEN :
    decodeBus movedMap 0b1000100111111111101110111 = .wrSnCr 1 0x77
    ∧ (after (exec (.wrSnCr 1 0x77) movedState)).peek 0x1203 = 0x55
    ∧ (after (exec (.wr 0x13FF 0x77) movedState)).peek 0x1203 = 0x55
    ∧ (after (exec (.wrSnCr 1 0x01) movedState)).peek 0x1203 = 0x00 := by decide +kernel

/-- 40_register_access.md R152: the arms in their order, each for every socket (0x0425 is also the low byte of S[0].TX_WR, 0x0426 a byte of S[0].RX_RSR, 0x044A of S[1].RX_RSR). -/
theorem test_arms_in_order :
    let m := { Config.AddressMap.tabled with sockStride := 0x24 }
    [0x0425, 0x0426, 0x0429, 0x044A].map (locate m) = [.sCr 1, .sIr 1, .rxRdLo 0, .sIr 2] := by decide +kernel

/-- 10_state.md R21: a register stands at S_BASE(n) + offset, also beyond the stride. -/
theorem test_interleaved_blocks :
    let m := { Config.AddressMap.tabled with sockBase := 0x1000, sockStride := 8, oCr := 0x20, oIr := 0x40 }
    [0x1020, 0x1038, 0x1050, 0x1001].map (locate m) = [.sCr 0, .sCr 3, .sIr 2, .plain] := by decide +kernel

/-- Log 17. -/
theorem test_short_frame :
    buildOffer f30 Config.illustrativeSeed { Config.defaults with dhcpFrameLen := 260 } = v31.take 260 := by
  decide +kernel


/-! ## Bus transactions (95_test_vectors.md 2.1, 2.3) -/

/-- V1, V2. -/
theorem test_RD :
    (after (exec (.rd 0x0004) State.reset)).rdata = 0x01 ∧ (after (exec (.rd 0x0420) State.reset)).rdata = 0x08 := by
  decide +kernel

/-- V3. -/
theorem test_RD_outside :
    (after (exec (.rd 0x8000) { State.reset with rdata := 0x55 })).rdata = 0x00 := by decide +kernel

/-- V4. -/
theorem test_WR : (after (exec (.wr 0x0030 0xAB) State.reset)).peek 0x0030 = 0xAB := by decide +kernel

/-- V5, V3. -/
theorem test_WR_device_owned :
    (after (exec (.wr 0x0420 0xFF) State.reset)).peek 0x0420 = 0x08
    ∧ (after (exec (.wr 0x8000 0x55) State.reset)).mem = State.reset.mem := by decide +kernel

/-- V9. -/
theorem test_WR_C_MR : (after (exec (.wrCMr 0x7F) State.reset)).peek 0x0000 = 0x7F := by decide +kernel

/-- V60. -/
theorem test_WR_C_MR_reset :
    let s := poked (State.reset.setSock 0 initSock) [(0x1A, 0x03), (0x1B, 0x03), (0x400, 0x01), (0x404, 0x12), (0x30, 0xAB)]
    let t := after (exec (.wrCMr 0x80) s)
    [t.peek 0x0000, t.peek 0x0403, t.peek 0x0400, t.peek 0x0404, t.peek 0x0030, t.peek 0x001B] =
      [0x00, 0x00, 0x01, 0x12, 0xAB, 0x55] ∧ t.peek16 0x0420 = 0x0800 := by decide +kernel

/-- V5. -/
theorem test_WR_C_IR : (after (exec (.wrCIr 0xFF) State.reset)).peek 0x0015 = 0x00 := by decide +kernel

/-- V21. -/
theorem test_WR_Sn_CR :
    (after (exec (.wrSnCr 0 0x03) State.reset)).peek 0x0401 = 0x00
    ∧ (after (exec (.wrSnCr 0 0x03) State.reset)).alive = true := by decide +kernel

/-- V26. -/
theorem test_WR_Sn_CR_busy :
    refusal (exec (.wrSnCr 3 0x20) (withSock 3 listenSock)) = some .commandWhileBusy := by decide +kernel

/-- V6. -/
theorem test_WR_Sn_IR :
    let t := after (exec (.wrSnIr 0 0x10) (withSock 0 { udpSock with ir := 0x14 }))
    t.peek 0x0402 = 0x04 ∧ t.peek 0x0015 = 0x01 ∧ t.irq = true := by decide +kernel

/-- V8. -/
theorem test_WR_Sn_IR_zero :
    (after (exec (.wrSnIr 0 0x00) (withSock 0 { udpSock with ir := 0x04 }))).peek 0x0402 = 0x04 := by decide +kernel

/-- V5. -/
theorem test_WR_Sn_SR :
    (after (exec (.wrSnSr 0 0x17) State.reset)).peek 0x0403 = 0x00
    ∧ (after (exec (.wrSnSr 0 0x17) State.reset)).alive = true := by decide +kernel

/-- V16. -/
theorem test_WR_TX_WR :
    let t := after (exec (.wrSnTxWrLo 0 0x0A) (withSock 0 initSock))
    (t.sock 0).txWr = 10 ∧ t.peek16 0x0420 = 0x07F6 := by decide +kernel

/-- V18. -/
theorem test_WR_TX_WR_wraps :
    (after (exec (.wrSnTxWrLo 0 0x04) (withSock 0 { udpSock with txRd := 0xFFFC, txWr := 0xFFFC }))).peek16 0x0420 = 0x07F8 := by
  decide +kernel

/-- V19. -/
theorem test_WR_RX_RD :
    (after (exec (.wrSnRxRdLo 0 0x12) (withSock 0 { udpSock with rxWr := 18 }))).peek16 0x0426 = 0x0000 := by
  decide +kernel

/-- V19a. -/
theorem test_WR_RX_RD_refused :
    refusal (exec (.wrSnRxRdLo 0 0x13) (withSock 0 { udpSock with rxWr := 18 })) = some .rxReadPastWrite := by
  decide +kernel

/-- V14. -/
theorem test_ring_geometry :
    let s := poked State.reset [(0x1B, 0x0A)]
    ((List.finRange 4).map fun n => (s.txBase n, s.txSize n)).take 2 = [(0x4000, 4096), (0x5000, 4096)]
    ∧ s.txSize 2 = 0 ∧ s.txSize 3 = 0 := by decide +kernel


/-! ## Socket commands (2.4) -/

/-- 42_socket_commands.md R200. -/
theorem test_NONE :
    (after (exec (.scmdNone 3) (poked (withSock 3 listenSock) [(0x701, 0x02)]))).peek 0x0701 = 0x02 := by
  decide +kernel

/-- V22. -/
theorem test_OPEN_TCP :
    let t := after (exec (.scmdOpen 0) (poked State.reset [(0x400, 0x01)]))
    t.peek 0x0403 = 0x13 ∧ t.peek 0x0401 = 0x00 := by decide +kernel

/-- V22. -/
theorem test_OPEN_UDP :
    let t := after (exec (.scmdOpen 0) (poked State.reset [(0x400, 0x02)]))
    t.peek 0x0403 = 0x22 ∧ t.peek 0x0401 = 0x01 ∧ (t.sock 0).op = .udpBind := by decide +kernel

/-- V25. -/
theorem test_LISTEN :
    let t := after (exec (.scmdListen 3) (withSock 3 initSock))
    t.peek 0x0701 = 0x02 ∧ t.peek 0x0703 = 0x14 := by decide +kernel

/-- V24. -/
theorem test_CONNECT :
    let t := after (exec (.scmdConnect 0) (withSock 0 initSock))
    t.peek 0x0401 = 0x04 ∧ (t.sock 0).op = .connect 1600 ∧ t.peek 0x0403 = 0x13 := by decide +kernel

/-- P1. -/
theorem test_DISCON :
    let t := after (exec (.scmdDiscon 0) (withSock 0 tcpSock))
    t.peek 0x0401 = 0x08 ∧ t.peek 0x0403 = 0x1A ∧ (t.sock 0).op = .close true := by decide +kernel

/-- V25. -/
theorem test_CLOSE :
    let t := after (exec (.scmdClose 3) (withSock 3 listenSock))
    t.peek 0x0701 = 0x10 ∧ t.peek 0x0703 = 0x1A ∧ (t.sock 3).op = .close false := by decide +kernel

/-- V20. -/
theorem test_CLOSE_of_CLOSED :
    let t := after (exec (.scmdClose 0) State.reset)
    [t.peek 0x0401, t.peek 0x0402, t.peek 0x0403] = [0x00, 0x00, 0x00] ∧ t.alive = true := by decide +kernel

/-- P1. -/
theorem test_SEND :
    let t := after (exec (.scmdSend 0) (withSock 0 { tcpSock with txWr := 5 }))
    t.peek 0x0401 = 0x20 ∧ (t.sock 0).op = .send := by decide +kernel

/-- 70_reset_and_hazards.md R460 H3. -/
theorem test_SEND_overrun :
    refusal (exec (.scmdSend 0) (withSock 0 { tcpSock with txWr := 2049 })) = some .sendOverrun
    ∧ (after (exec (.scmdSend 0) (withSock 0 { tcpSock with txWr := 2048 }))).peek 0x0401 = 0x20 := by decide +kernel

/-- V28. -/
theorem test_SEND_MAC :
    let t := after (exec (.scmdSendMac 1) (withSock 1 { udpSock with txRd := 3, txWr := 0x17 }))
    t.peek 0x0501 = 0x00 ∧ t.peek 0x0502 = 0x10 ∧ t.peek16 0x0522 = 0x0017 ∧ t.peek16 0x0520 = 0x0800 := by
  decide +kernel

/-- V29. -/
theorem test_SEND_KEEP : (after (exec (.scmdSendKeep 1) (withSock 1 udpSock))).peek 0x0502 = 0x00 := by decide +kernel

/-- V29a. -/
theorem test_SEND_KEEP_no_handle :
    (after (exec (.scmdSendKeep 1) (withSock 1 { udpSock with conn := none }))).peek 0x0502 = 0x08 := by
  decide +kernel

/-- P1. -/
theorem test_RECV :
    let t := after (exec (.scmdRecv 0) (withSock 0 { tcpSock with recvEnabled := false }))
    t.peek 0x0401 = 0x00 ∧ (t.sock 0).recvEnabled = true := by decide +kernel

/-- V21. -/
theorem test_SCMD_UNRECOGNISED :
    after (exec (.scmdUnrecognised 0 0x03) State.reset) = State.reset := by decide +kernel

/-- V22. -/
theorem test_SMODE :
    [Instr.smodeTcp 0 0, .smodeUdp 0 8, .smodeIpraw 0 0, .smodeMacraw 0 0, .smodePppoe 0 0, .smodeOther 0 0 0].map
      (fun i => ((after (exec i State.reset)).peek 0x0403, (after (exec i State.reset)).peek 0x0401)) =
    [(0x13, 0x00), (0x22, 0x01), (0x32, 0x00), (0x00, 0x00), (0x00, 0x00), (0x00, 0x00)] := by decide +kernel

/-- P5. -/
theorem test_SMODE_disabled_ring :
    (after (exec (.smodeTcp 1 0) (poked State.reset [(0x1B, 0x03)]))).peek 0x0503 = 0x00 := by decide +kernel


/-! ## Engines (2.4, 2.7) -/

/-- A socket whose UDP bind is in flight. -/
def bindSock : Sock := { Sock.reset with status := .udp, op := .udpBind }

/-- A send in flight with the TX bytes `n` long. -/
def sending (k : Sock) (len : Half) : Sock := { k with op := .send, txWr := len }

/-- P2; 43_engines.md R243, 60_exceptions.md R408. -/
theorem test_UDPBIND_DONE :
    let t := after (exec (.ctlUdpbindDone 1 .ok) (poked (withSock 1 bindSock) [(0x501, 0x01)]))
    let u := after (exec (.ctlUdpbindDone 1 .failPermission) (withSock 1 bindSock))
    t.peek 0x0501 = 0x00 ∧ t.peek 0x0502 = 0x00 ∧ (t.sock 1).conn = some 1 ∧ (t.sock 1).recvEnabled = true
    ∧ u.peek 0x0502 = 0x08 ∧ u.notices = 1 ∧ u.peek 0x0503 = 0x22 := by decide +kernel

/-- 43_engines.md R244, 44_network_port.md R281. -/
theorem test_LISTEN_DONE :
    let t := after (exec (.ctlListenDone 0 .accepted ⟨false, 5⟩) (withSock 0 listenSock))
    t.peek 0x0403 = 0x17 ∧ t.peek 0x0402 = 0x01 ∧ t.netLog = [.listenTcp 0 5] := by decide +kernel

/-- 44_network_port.md R283. -/
theorem test_UDPBIND_DONE_group :
    let s (mode : Byte) := poked (toHost 1 0x09 (withSock 1 bindSock)) [(0x500, mode), (0x504, 0x13), (0x516, 0x02)]
    let q : Quad := ⟨0xC0, 0xA8, 0x01, 0x09⟩
    (after (exec (.ctlUdpbindDone 1 .ok) (s 0x82))).netLog = [.openUdp 0x1300 (some q) 2]
    ∧ (after (exec (.ctlUdpbindDone 1 .ok) (s 0x02))).netLog = [.openUdp 0x1300 none 2] := by decide +kernel

/-- V24. -/
theorem test_CONNECT_DONE_fails :
    let t := after (exec (.ctlConnectDone 0 .fail) (poked (withSock 0 { initSock with op := .connect 1600 }) [(0x401, 0x04)]))
    t.peek 0x0401 = 0x00 ∧ t.peek 0x0402 = 0x08 ∧ t.peek 0x0403 = 0x13 := by decide +kernel

/-- P1. -/
theorem test_CONNECT_DONE :
    let t := after (exec (.ctlConnectDone 0 .connected) (toHost 0 0x14 (withSock 0 { initSock with op := .connect 1600 })))
    t.peek 0x0403 = 0x17 ∧ t.peek 0x0402 = 0x01 ∧ t.peek 0x0015 = 0x01 := by decide +kernel

/-- P1. -/
theorem test_SEND_DONE :
    let t := after (exec (.ctlSendDone 0 true true) (poked (withSock 0 (sending tcpSock 5))
      [(0x4000, 0x48), (0x4001, 0x65), (0x4002, 0x6C), (0x4003, 0x6C), (0x4004, 0x6F)]))
    t.netLog = [.sendStream 0 [0x48, 0x65, 0x6C, 0x6C, 0x6F]] ∧ t.peek 0x0402 = 0x10 ∧ t.peek16 0x0422 = 0x0005 := by
  decide +kernel

/-- V27. -/
theorem test_SEND_DONE_loopback :
    let t := after (exec (.ctlSendDone 1 true true) (poked (toHost 1 0x32 (withSock 1 (sending udpSock 3)))
      [(0x504, 0x13), (0x505, 0x88), (0x510, 0x13), (0x511, 0x88)]))
    t.peek 0x0502 = 0x08 ∧ t.peek16 0x0522 = 0x0003 ∧ t.netLog = [] := by decide +kernel

/-- V25. -/
theorem test_CLOSE_DONE :
    let t := after (exec (.ctlCloseDone 3) (withSock 3 { Sock.reset with status := .closing, op := .close false }))
    [t.peek 0x0701, t.peek 0x0703, t.peek 0x0702] = [0x00, 0x00, 0x00] ∧ (t.sock 3).op = .none := by decide +kernel

/-- V29b. -/
theorem test_CLOSE_DONE_discon :
    let t := after (exec (.ctlCloseDone 0) (withSock 0 { tcpSock with status := .closeWait, op := .close true, ir := 0x01 }))
    [t.peek 0x0403, t.peek 0x0401, t.peek 0x0402] = [0x00, 0x00, 0x03] ∧ t.netLog = [.close 0] := by decide +kernel

/-- V52. -/
theorem test_RX_TCP :
    let t := after (exec (.rxTcp 0 [0, 1, 2, 3, 4, 5, 6, 7, 8, 9] 10) (withSock 0 { tcpSock with rxRd := 2044, rxWr := 2044 }))
    bytesAt t 0x67FC 4 = [0, 1, 2, 3] ∧ bytesAt t 0x6000 6 = [4, 5, 6, 7, 8, 9] ∧ t.peek16 0x042A = 0x0806
    ∧ t.peek16 0x0426 = 0x000A := by decide +kernel

/-- V53. -/
theorem test_RX_TCP_full :
    (after (exec (.rxTcp 0 [0x41] 1) (withSock 0 { tcpSock with rxWr := 2048 }))).peek 0x0402 = 0x00 := by
  decide +kernel

/-- V50, with three payload bytes. -/
theorem test_RX_UDP :
    let t := after (exec (.rxUdp 1 ⟨0xC0, 0xA8, 0x01, 0x14⟩ 40000 [0x30, 0x31, 0x32]) (withSock 1 udpSock))
    bytesAt t 0x6800 11 = [0xC0, 0xA8, 0x01, 0x14, 0x9C, 0x40, 0x00, 0x03, 0x30, 0x31, 0x32] ∧ t.peek16 0x0526 = 0x000B
    ∧ t.peek 0x0502 = 0x04 ∧ (t.sock 1).recvEnabled = false := by decide +kernel

/-- V55, and the header alone at the edge. -/
theorem test_RX_UDP_no_room :
    (after (exec (.rxUdp 0 ⟨1, 2, 3, 4⟩ 53 [0x41]) (withSock 0 { udpSock with rxWr := 2041 }))).peek 0x0402 = 0x00
    ∧ bytesAt (after (exec (.rxUdp 0 ⟨1, 2, 3, 4⟩ 53 [0x41]) (withSock 0 { udpSock with rxWr := 2040 }))) 0x67FE 2 = [0x00, 0x00] := by
  decide +kernel

/-- V29b. -/
theorem test_RX_EOF :
    let t := after (exec (.rxEof 0) (withSock 0 tcpSock))
    t.peek 0x0403 = 0x1C ∧ t.peek 0x0401 = 0x08 ∧ (t.sock 0).op = .close true := by decide +kernel

/-- V56. -/
theorem test_RX_ERROR :
    let t := after (exec (.rxError 0 false) (withSock 0 tcpSock))
    t.peek 0x0402 = 0x08 ∧ t.peek 0x0403 = 0x17 ∧ (t.sock 0).recvEnabled = false ∧ (t.sock 0).conn = none := by
  decide +kernel


/-! ## DHCP responder (2.5) -/

/-- V31. -/
theorem test_offer : buildOffer f30 Config.illustrativeSeed Config.defaults = v31 := by decide +kernel

/-- V34, its start. -/
theorem test_DHCP_DISCOVER :
    (after (exec (.dhcpDiscover 0 f30) (toAll 0 { withSock 0 udpSock with now := 5000 }))).dhcp = some x34 := by
  decide +kernel

/-- V39, V39a. -/
theorem test_DHCP_DISCOVER_unicast :
    (after (exec (.dhcpDiscover 0 f30) (toHost 0 0x01 State.reset))).dhcp = none
    ∧ (after (exec (.dhcpDiscover 0 f30) (toHost 0 0xFF State.reset))).dhcp.isSome = true := by decide +kernel

/-- V34, V34a. -/
theorem test_DHCP_REQUEST :
    (after (exec (.dhcpRequest 0 f32) (dhcpAt 6000))).dhcp =
      some { x34 with state := .done, buf := v31.set 242 0x05 }
    ∧ (after (exec (.dhcpRequest 0 f32) (dhcpAt 6001))).dhcp = some x34 := by decide +kernel

/-- V36, V36a. -/
theorem test_DHCP_REQUEST_source :
    (after (exec (.dhcpRequest 0 { f32 with serverId := none, ciaddr := ⟨0xC0, 0xA8, 0x01, 0x32⟩ }) (dhcpAt 5400))).dhcp ≠ some x34
    ∧ (after (exec (.dhcpRequest 0 { f32 with serverId := none }) (dhcpAt 5400))).dhcp = some x34 := by decide +kernel

/-- 45_dhcp_responder.md R308. -/
theorem test_DHCP_OTHER :
    (after (exec (.dhcpOther 0 { f30 with msgtype := 0x08 }) (dhcpAt 5000))).dhcp = some x34 := by decide +kernel

/-- V38. -/
theorem test_DHCP_INVALID :
    (after (exec (.dhcpInvalid 0 (v30.set 236 0x64)) State.reset)).dhcp = none := by decide +kernel

/-- 45_dhcp_responder.md R309. -/
theorem test_DHCP_EXPIRE :
    (after (exec .dhcpExpire (dhcpAt 6000))).dhcp = some x34 ∧ (after (exec .dhcpExpire (dhcpAt 6001))).dhcp = none := by
  decide +kernel

/-- V39c. -/
theorem test_DHCP_DELIVER :
    let t := after (exec (.rxDhcpDeliver 0) (dhcpAt 5000))
    bytesAt t 0x6000 12 = [0xC0, 0xA8, 0x01, 0x01, 0x00, 0x43, 0x01, 0x2C, 0x02, 0x01, 0x06, 0x00]
    ∧ t.peek16 0x0426 = 0x0134 ∧ t.peek 0x0402 = 0x04 := by decide +kernel


/-! ## ICMP echo (2.6) -/

/-- V40, V41. -/
theorem test_echo_reply :
    echoReply v40 = [0x00, 0x00, 0x3B, 0x37, 0x00, 0x01, 0x00, 0x01, 0x61, 0x62, 0x63, 0x64]
    ∧ echoReply [0x08, 0x00, 0x00, 0x00, 0x12, 0x34, 0x00, 0x05, 0x68, 0x69, 0x21] =
        [0x00, 0x00, 0x64, 0x5D, 0x12, 0x34, 0x00, 0x05, 0x68, 0x69, 0x21] := by decide +kernel

/-- V42, V43. -/
theorem test_echo_reply_carries :
    echoReply [0x08, 0x00, 0xF7, 0xFC, 0x00, 0x01, 0x00, 0x02, 0xFF, 0xFF, 0xFF, 0xFF, 0xFF, 0xFF] =
      [0x00, 0x00, 0xFF, 0xFC, 0x00, 0x01, 0x00, 0x02, 0xFF, 0xFF, 0xFF, 0xFF, 0xFF, 0xFF]
    ∧ echoReply [0x08, 0x00, 0xF7, 0xFF, 0x00, 0x00, 0x00, 0x00] = [0x00, 0x00, 0xFF, 0xFF, 0x00, 0x00, 0x00, 0x00] := by
  decide +kernel

/-- V48. -/
theorem test_ICMP_ECHO_REQUEST :
    (after (exec (.icmpEchoRequest 2 v40) { s48 with pings := [] })).pings = [{ g48 with outcome := .pending }] := by
  decide +kernel

/-- V46. -/
theorem test_ICMP_OTHER : (after (exec (.icmpOther 2 0x11 v40) State.reset)).pings = [] := by decide +kernel

/-- V47, V48. -/
theorem test_PROBE_DONE :
    (after (exec (.probeDone 0 false) { s48 with pings := [{ g48 with outcome := .pending }] })).pings = []
    ∧ (after (exec (.probeDone 0 true) { s48 with pings := [{ g48 with outcome := .pending }] })).pings = [g48] := by
  decide +kernel

/-- 46_icmp_echo.md R347. -/
theorem test_PING_EXPIRE : (after (exec (.pingExpire 0) s48)).pings = [] := by decide +kernel

/-- V48. -/
theorem test_RX_IPRAW :
    let t := after (exec (.rxIpraw 2) s48)
    bytesAt t 0x7000 18 = [0xC0, 0xA8, 0x01, 0x01, 0x00, 0x0C] ++ echoReply v40 ∧ t.peek16 0x0626 = 0x0012 ∧ t.pings = [] := by
  decide +kernel

/-- V49, and four header bytes, whose values are free (log 8). -/
theorem test_RX_IPRAW_other_headers :
    let t := after (exec (.rxIpraw 2) { s48 with cfg := { Config.defaults with iprawInfoHdr := 0 } })
    let u := after (exec (.rxIpraw 2) { s48 with cfg := { Config.defaults with iprawInfoHdr := 4 } })
    bytesAt t 0x7000 4 = [0x00, 0x00, 0x3B, 0x37] ∧ t.peek16 0x0626 = 0x000C ∧ t.freeUsed = 0
    ∧ u.peek16 0x0626 = 0x0010 ∧ u.freeUsed = 4 := by decide +kernel


/-! ## Firmware facade (2.9) -/

/-- Reset, with the facade's address, errors and time base set. -/
def faState (addr : Half) (err : Byte) (t0 : Nat) : State :=
  { State.reset with fa := { State.reset.fa with addr := addr, err := err, t0 := t0 } }

/-- V70. -/
theorem test_F_SETADDR : (after (exec (.fSetaddr 0x0424) State.reset)).fa.addr = 0x0424 := by decide +kernel

/-- V70. -/
theorem test_F_GETADDR : (after (exec .fGetaddr (faState 0x0424 0 0))).fa.out = [0x24, 0x04] := by decide +kernel

/-- V71. -/
theorem test_F_WRBYTES :
    let t := after (exec (.fWrbytes [0x00, 0x0A]) { faState 0x0424 0 0 with socks := (withSock 0 initSock).socks })
    (t.sock 0).txWr = 10 ∧ t.peek16 0x0420 = 0x07F6 ∧ t.fa.addr = 0x0426 := by decide +kernel

/-- V72. -/
theorem test_F_RDBYTES :
    let t := after (exec (.fRdbytes 3) (faState 0x0017 0 0))
    t.fa.out = [0x07, 0xD0, 0x08] ∧ t.fa.addr = 0x001A := by decide +kernel

/-- V73. -/
theorem test_F_WRIP :
    let t := after (exec (.fWrip 7 ⟨0x0A, 0x00, 0x00, 0x01⟩) State.reset)
    t.fa.ip[7] = ⟨0x0A, 0x00, 0x00, 0x01⟩ ∧ t.fa.err = 0 := by decide +kernel

/-- V74. -/
theorem test_F_WRIP_bad_slot :
    let t := after (exec (.fWrip 8 ⟨1, 2, 3, 4⟩) State.reset)
    t.fa.ip = State.reset.fa.ip ∧ t.fa.err = 1 := by decide +kernel

/-- V73. -/
theorem test_F_RDIP :
    (after (exec (.fRdip 7) (after (exec (.fWrip 7 ⟨0x0A, 0x00, 0x00, 0x01⟩) State.reset)))).fa.out = [0x0A, 0x00, 0x00, 0x01] := by
  decide +kernel

/-- V74. -/
theorem test_F_ERRCNT : (after (exec .fErrcnt (faState 0 1 0))).fa.out = [0x01] := by decide +kernel

/-- V75; 47_firmware_facade.md R361. -/
theorem test_F_UNKNOWN :
    (after (exec (.fUnknown 0x7F) (faState 0 1 0))).fa.err = 2 ∧ (after (exec (.fUnknown 0x7F) (faState 0 255 0))).fa.err = 255 := by
  decide +kernel

/-- V76. -/
theorem test_F_RDTIMER :
    (after (exec .fRdtimer { faState 0 0 1000 with now := 71000 })).fa.out = [0x70, 0x11] := by decide +kernel

/-- V77. -/
theorem test_F_PORTNO :
    let t := after (exec .fPortno { State.reset with portIn := 49153 })
    t.fa.out = [0x01, 0xC0] ∧ t.prov = [49153] := by decide +kernel

/-- 47_firmware_facade.md R372. -/
theorem test_F_SWVER :
    (after (exec .fSwver { State.reset with cfg := { Config.defaults with facadeSwver := 0x0102 } })).fa.out = [0x02, 0x01] := by
  decide +kernel

/-- 47_firmware_facade.md R372. -/
theorem test_F_HWVER :
    (after (exec .fHwver { State.reset with cfg := { Config.defaults with facadeHwver := 0x0304 } })).fa.out = [0x04, 0x03] := by
  decide +kernel

/-- 47_firmware_facade.md R373. -/
theorem test_F_LINK : (after (exec .fLink { State.reset with linkIn := 0x01 })).fa.out = [0x01] := by decide +kernel

/-- 47_firmware_facade.md R374. -/
theorem test_F_ID :
    (after (exec .fId { State.reset with cfg := { Config.defaults with facadeId := [0x4A, 0x4B] } })).fa.out = [0x4A, 0x4B, 0x00] := by
  decide +kernel

/-- V70, V72; 47_firmware_facade.md R360. -/
theorem test_port_read :
    let s := { State.reset with fa := { State.reset.fa with out := [0x24, 0x04] } }
    (after (portRead s)).fdata = 0x24 ∧ (after (portRead s)).fa.out = [0x04] ∧ (after (portRead State.reset)).fdata = 0x00
    ∧ (after (statusRead s)).fstatus = 0x03 ∧ (after (statusRead State.reset)).fstatus = 0x01
    ∧ after (statusWrite s) = s := by decide +kernel

/-- V70. -/
theorem test_bytes_one_by_one :
    let t := after (feed [0x24] (after (feed [0x02] State.reset)))
    t.fa.addr = 0x0000 ∧ (after (feed [0x04, 0x03] t)).fa.out = [0x24, 0x04] := by decide +kernel


/-! ## Lifecycle and interrupt outputs (2.8, 2.10) -/

/-- V63. -/
theorem test_LIFE_SOFT :
    let t := after (exec .lifeSoft (poked (withSock 0 { tcpSock with ir := 0x05 }) [(0x30, 0xAB)]))
    [t.peek 0x0403, t.peek 0x0402, t.peek 0x0015, t.peek 0x0030] = [0x00, 0x00, 0x00, 0xAB] ∧ t.irq = false
    ∧ t.netLog = [.close 0] := by decide +kernel

/-- V61, V1. -/
theorem test_LIFE_COLD_ON :
    (after (exec .lifeColdOn (poked (withSock 0 initSock) [(0x30, 0xAB), (0x1B, 0x03), (0x4000, 0x99)]))).mem = resetMemory := by
  decide +kernel

/-- V62. -/
theorem test_LIFE_POWER_OFF :
    let t := after (exec .lifePowerOff State.reset)
    [t.peek 0x0001, t.peek 0x001A, t.peek 0x0403] = [0x00, 0x00, 0x00] ∧ t.peek16 0x0017 = 0x0000
    ∧ t.peek16 0x0420 = 0x0400 := by decide +kernel

/-- V64. -/
theorem test_LIFE_DESTROY :
    refusal (exec (.rd 0x0000) (after (exec .lifeDestroy State.reset))) = some .destroyed := by decide +kernel

/-- V80, V81. -/
theorem test_raise :
    let t := State.reset.raiseInt 2 Config.Codes.tabled.intRecv
    t.peek 0x0602 = 0x04 ∧ t.peek 0x0015 = 0x04 ∧ t.irq = true
    ∧ (List.finRange 4).map t.sockIrq = [false, false, true, false] ∧ t.raiseInt 2 Config.Codes.tabled.intRecv = t := by
  decide +kernel

theorem test_fetch_runs_the_word :
    (after (step (State.reset.withFetchWord 32 0x0000100))).rdata = 0xC0
    ∧ (after (step (State.reset.withFetchWord 8 0x07))).prov = [1] := by decide +kernel

/-! ## The hypotheses of the obligations are met -/

/-- A socket with a send in flight and the TX ring full. -/
def fullSend (k : Sock) : State := withSock 0 (sending k 2048)

/-- Socket 0 connected, socket 1 bound, their handles handed out, a facade command half way: a state that satisfies the
invariant. -/
def busyState : State :=
  { (State.reset.setSock 0 tcpSock).setSock 1 { udpSock with conn := some 1, rxWr := 2048, ir := 0x04 } with
    nextHandle := 2, dhcp := some x34, pings := [g48], prov := [1], fa := { State.reset.fa with phase := .args 0x02 [0x24] } }

theorem witness_ReadsAnswerAndOutsideIsInert :
    State.reset.alive = true ∧ busAddr State.reset.cfg.map 0x7FFF < 0x8000 ∧ 0x8000 ≤ busAddr State.reset.cfg.map 0x8000 := by
  decide +kernel

theorem witness_DeviceRegistersShowHiddenState :
    (∀ x ∈ [Status.closed, .init, .listen, .established, .closing, .closeWait, .udp, .ipraw],
      ((withSock 3 { udpSock with status := x }).sock 3).status = x)
    ∧ (withSock 3 udpSock).cfg.Tabled := by exact ⟨by decide +kernel, rfl, rfl, rfl⟩

theorem witness_CommonInterruptSummarises :
    (State.reset.alive = true ∧ 4 ≤ 4)
    ∧ State.reset.cfg.Tabled := by exact ⟨by decide +kernel, rfl, rfl, rfl⟩

theorem witness_RingsArePackedInsideTheirBanks :
    State.reset.txSize 3 ≠ 0 ∧ State.reset.rxSize 3 ≠ 0 ∧ (2 : SockId) < 3 ∧ State.reset.txSize 2 ≠ 0
    ∧ State.reset.rxSize 2 ≠ 0 := by decide +kernel

theorem witness_PlainWriteStoresOneByte :
    (State.reset.alive = true ∧ PlainAddr (0x0001 : Half).toNat ∧ PlainAddr (0x0424 : Half).toNat ∧ PlainAddr (0x7FFF : Half).toNat)
    ∧ State.reset.cfg.Tabled := by exact ⟨by unfold PlainAddr; decide +kernel, rfl, rfl, rfl⟩

theorem witness_DeviceOwnedWritesAreIgnored :
    (State.reset.alive = true ∧ 0x03 ∈ devOffsets ∧ 0x2B ∈ devOffsets)
    ∧ State.reset.cfg.Tabled := by exact ⟨by decide +kernel, rfl, rfl, rfl⟩

theorem witness_ModeRegisterStoresOrResets :
    (State.reset.alive = true ∧ (0x80 : Byte).getLsbD 7 = true ∧ (0x7F : Byte).getLsbD 7 = false)
    ∧ State.reset.cfg.Tabled := by exact ⟨by decide +kernel, rfl, rfl, rfl⟩

theorem witness_LowByteCommitsTheCursor :
    let s := withSock 0 { udpSock with rxWr := 18 }
    (s.alive = true
    ∧ ¬ (s.peek16 (blockAddr 0 0x26)).toNat < (half (s.load (blockAddr 0 0x28)) 0x12 - (s.sock 0).rxRd).toNat
    ∧ (s.peek16 (blockAddr 0 0x26)).toNat < (half (s.load (blockAddr 0 0x28)) 0x13 - (s.sock 0).rxRd).toNat)
    ∧ s.cfg.Tabled := by exact ⟨by decide +kernel, rfl, rfl, rfl⟩

theorem witness_AcknowledgeClearsWrittenBits :
    let s := withSock 0 { udpSock with ir := 0x14 }
    (s.alive = true)
    ∧ s.cfg.Tabled := by exact ⟨by decide +kernel, rfl, rfl, rfl⟩

theorem witness_SoftRequestResets :
    (busyState.alive = true)
    ∧ busyState.cfg.Tabled := by exact ⟨by decide +kernel, rfl, rfl, rfl⟩

theorem witness_ColdRequestZeroesTheWindow :
    (busyState.alive = true ∧ 0x4000 ∉ commonResetAddrs ∧ 0x4000 < 0x8000
    ∧ ∀ n : SockId, 0x4000 ≠ blockAddr n 0x20 ∧ 0x4000 ≠ blockAddr n 0x21)
    ∧ busyState.cfg.Tabled := by exact ⟨by decide +kernel, rfl, rfl, rfl⟩

theorem witness_PowerOffZeroesWithoutSeeding :
    (busyState.alive = true)
    ∧ busyState.cfg.Tabled := by exact ⟨by decide +kernel, rfl, rfl, rfl⟩

theorem witness_DestroyStopsTheBlock :
    (busyState.alive = true ∧ 0x0001 ∉ [0x0000, 0x0017, 0x0018, 0x0019, 0x001A, 0x001B, 0x0028]
    ∧ ∀ n : SockId, ∀ off ∈ sockResetOffsets, 0x0001 ≠ blockAddr n off)
    ∧ busyState.cfg.Tabled := by exact ⟨by decide +kernel, rfl, rfl, rfl⟩

theorem witness_DestroyedIsFinal :
    ({ State.reset with alive := false } : State).alive = false ∧ isAccess (.rd 0) = true ∧ isAccess .lifeColdOn = false := by
  decide +kernel

theorem witness_CommandByteRunsItsCommand :
    let s := withSock 0 { tcpSock with txWr := 2048 }
    s.alive = true ∧ (s.sock 0).op = .none ∧ s.txUsed 0 ≤ s.txSize 0 := by decide +kernel

theorem witness_BusyCommandByteAdmitsOnlyCloses :
    (withSock 0 listenSock).alive = true ∧ ((withSock 0 listenSock).sock 0).op ≠ .none
    ∧ ((withSock 0 { tcpSock with status := .closing, op := .close true }).sock 0).op ≠ .none := by decide +kernel

theorem witness_OpenFollowsTheProtocolNibble :
    let s := poked State.reset [(0x400, 0x01)]
    (s.alive = true ∧ (s.sock 0).op = .none ∧ (s.sock 0).status = .closed ∧ 0 < s.txSize 0 ∧ 0 < s.rxSize 0
    ∧ (s.load (blockAddr 0 0x00)).extractLsb' 0 4 = 1 ∧ (0 : BitVec 4) ∉ [1, 2, 3, 4, 5] ∧ (6 : BitVec 4) ∉ [1, 2, 3, 4, 5]
    ∧ ((withSock 0 initSock).sock 0).status ≠ .closed)
    ∧ s.cfg.Tabled := by exact ⟨by decide +kernel, rfl, rfl, rfl⟩

theorem witness_ListenAndConnectStartFromInit :
    let s := withSock 0 initSock
    s.alive = true ∧ (s.sock 0).op = .none ∧ (s.sock 0).status = .init ∧ (s.sock 1).status ≠ .init := by
  decide +kernel

theorem witness_CloseCommandsStartAClose :
    let s := withSock 0 listenSock
    s.alive = true ∧ (∀ h, (s.sock 0).op ≠ .close h) ∧ (s.sock 0).status ≠ .closed ∧ (∀ h, (s.sock 1).op ≠ .close h)
    ∧ (s.sock 1).status = .closed := by decide +kernel

theorem witness_SendStartsOrIsRefused :
    let s (len : Half) : State := withSock 0 { tcpSock with txWr := len }
    (s 0).alive = true ∧ ((s 0).sock 0).op = .none ∧ ((s 0).sock 1).status ∉ [Status.established, .udp, .ipraw]
    ∧ ¬ ((s 0).sock 0).status ∉ [Status.established, .udp, .ipraw]
    ∧ (s 2049).txSize 0 < (((s 2049).sock 0).txWr - ((s 2049).sock 0).txRd).toNat
    ∧ ¬ (s 2048).txSize 0 < (((s 2048).sock 0).txWr - ((s 2048).sock 0).txRd).toNat := by decide +kernel

theorem witness_SendMacReleasesAndRaises :
    let s := withSock 0 udpSock
    (s.alive = true ∧ (s.sock 0).op = .none ∧ (s.sock 0).status ∈ [Status.udp, .established]
    ∧ (s.sock 1).status ∉ [Status.udp, .established])
    ∧ s.cfg.Tabled := by exact ⟨by decide +kernel, rfl, rfl, rfl⟩

theorem witness_SendKeepTimesOutWithoutHandle :
    let s := withSock 0 { udpSock with conn := none }
    s.alive = true ∧ (s.sock 0).op = .none ∧ (s.sock 0).status ∈ [Status.udp, .established] ∧ (s.sock 0).conn = none
    ∧ ((withSock 0 udpSock).sock 0).conn ≠ none := by decide +kernel

theorem witness_RecvArmsReceive :
    let s := withSock 0 rawSock
    s.alive = true ∧ (s.sock 0).op = .none ∧ (s.sock 0).status ∈ [Status.established, .udp, .ipraw]
    ∧ (s.sock 1).status ∉ [Status.established, .udp, .ipraw] := by decide +kernel

theorem witness_UnrecognisedCommandsAreCleared :
    State.reset.alive = true ∧ (State.reset.sock 0).op = .none := by decide +kernel

theorem witness_BindCompletes :
    (withSock 1 bindSock).alive = true ∧ ((withSock 1 bindSock).sock 1).op = .udpBind := by decide +kernel

theorem witness_ListenCompletes :
    (withSock 3 listenSock).alive = true ∧ ((withSock 3 listenSock).sock 3).op = .listen := by decide +kernel

theorem witness_ConnectCompletes :
    let s := withSock 0 { initSock with op := .connect 1600 }
    let loop := poked (toHost 0 0x32 s) [(0x505, 0x88), (0x511, 0x88)]
    s.alive = true ∧ (s.sock 0).op = .connect 1600 ∧ s.sDipr 0 ≠ s.cSipr
    ∧ loop.alive = true ∧ (loop.sock 0).op = .connect 1600 ∧ loop.sDipr 0 = loop.cSipr
    ∧ loop.sDport 0 = loop.sPort 0 ∧ loop.sDport 0 ∉ loop.released := by decide +kernel

theorem witness_TcpSendCompletes :
    let s := fullSend tcpSock
    let u := fullSend { tcpSock with conn := none }
    s.alive = true ∧ (s.sock 0).op = .send ∧ (s.sock 0).status = .established ∧ (s.sock 0).conn = some 0
    ∧ ((s.sock 0).txWr - (s.sock 0).txRd).toNat ≤ s.txSize 0
    ∧ u.alive = true ∧ (u.sock 0).op = .send ∧ (u.sock 0).status = .established ∧ (u.sock 0).conn = none := by
  decide +kernel

theorem witness_UdpSendCompletes :
    let s := fullSend udpSock
    let loop := toHost 0 0x32 s
    s.alive = true ∧ (s.sock 0).op = .send ∧ (s.sock 0).status = .udp ∧ s.sDport 0 ≠ s.cfg.dhcpServerPort
    ∧ (s.sock 0).conn = some 0 ∧ ((s.sock 0).txWr - (s.sock 0).txRd).toNat ≤ s.txSize 0
    ∧ s.sDipr 0 ≠ s.cSipr
    ∧ loop.alive = true ∧ (loop.sock 0).op = .send ∧ (loop.sock 0).status = .udp ∧ loop.sDport 0 ≠ loop.cfg.dhcpServerPort
    ∧ loop.sDipr 0 = loop.cSipr
    ∧ loop.sDport 0 = loop.sPort 0 ∧ loop.sDport 0 ∉ loop.released := by decide +kernel

theorem witness_InsideSendRunsItsPayload :
    let s := poked (fullSend udpSock) [(0x411, 67)]
    let u := fullSend rawSock
    s.alive = true ∧ (s.sock 0).op = .send ∧ (s.sock 0).status = .udp ∧ s.sDport 0 = s.cfg.dhcpServerPort
    ∧ ((s.sock 0).txWr - (s.sock 0).txRd).toNat ≤ s.txSize 0
    ∧ u.alive = true ∧ (u.sock 0).op = .send ∧ (u.sock 0).status = .ipraw := by decide +kernel

theorem witness_CloseCompletes :
    let s := { withSock 0 { tcpSock with status := .closing, op := .close true } with prov := [0] }
    s.alive = true ∧ (s.sock 0).op = .close true ∧ s.sPort 0 ∈ s.prov := by decide +kernel

/-- An armed TCP socket with a full ring, an armed UDP socket with room for 7 bytes, an IPRAW socket one byte short of the
room its reached ping needs, and a LISTEN socket busy; an expired exchange. -/
def stuckState : State :=
  (((toHost 2 0x01 (withSock 0 { tcpSock with rxWr := 2048 })).setSock 1 { udpSock with rxWr := 2041 }).setSock 2
    { rawSock with rxWr := 2031 }).setSock 3 listenSock

theorem witness_DisabledEnginesChangeNothing :
    let s := { stuckState with dhcp := some { x34 with sock := 1 }, now := 6001, pings := [g48] }
    let room (n : SockId) := s.rxSize n - ((s.sock n).rxWr - (s.sock n).rxRd).toNat
    let wanted (g : Ping) : Prop := g.outcome = .reachable ∧ g.target = s.sDipr 2
    ((s.sock 3).op ≠ .udpBind ∧ (∀ ms, (s.sock 3).op ≠ .connect ms) ∧ (s.sock 3).op ≠ .send
      ∧ (∀ had, (s.sock 3).op ≠ .close had) ∧ (s.sock 0).op ≠ .listen)
    ∧ (¬ (1 ≤ 0) ∧ ¬ (2 ≤ [(0x41 : Byte)].length) ∧ ¬ (1 ≤ room 0)) ∧ ¬ (8 ≤ room 1)
    ∧ (s.sock 1).status ≠ .established ∧ (s.sock 2).conn = none
    ∧ ({ tcpSock with op := .send } : Sock).op ≠ .none
    ∧ ¬ (∃ x, s.dhcp = some x ∧ x.deliverable = true ∧ ¬ (x.state = .awaitingRequest ∧ x.deadline < s.now)
        ∧ x.sock = 1 ∧ (s.sock 1).recvEnabled = true ∧ (s.sock 1).status = .udp ∧ 8 + s.cfg.dhcpFrameLen ≤ room 1)
    ∧ ¬ (∃ pre g post, s.pings = pre ++ g :: post ∧ wanted g ∧ (∀ h ∈ pre, ¬ wanted h)
        ∧ (s.sock 2).recvEnabled = true ∧ (s.sock 2).status = .ipraw
        ∧ s.cfg.iprawInfoHdr + g.payload.length ≤ room 2)
    ∧ s.pings.length ≤ 1 := by
  intro s room wanted
  have listens : (s.sock 3).op = .listen := by decide +kernel
  refine ⟨⟨by decide +kernel, fun ms => by simp [listens], by decide +kernel⟩, by decide +kernel, by decide +kernel,
    by decide +kernel, by decide +kernel, by decide +kernel, ?_, ?_, by decide +kernel⟩
  · rintro ⟨x, hx, -, h, -⟩
    cases hx
    exact h (by decide +kernel)
  · rintro ⟨pre, g, post, e, -, -, -, -, h⟩
    have m : g ∈ [g48] := by rw [show [g48] = pre ++ g :: post from e]; simp
    rw [List.mem_singleton.mp m] at h
    exact absurd h (by decide +kernel)

theorem witness_TcpReceiveCommits :
    let s := withSock 0 { tcpSock with rxWr := 2047 }
    s.alive = true ∧ (s.sock 0).recvEnabled = true ∧ (s.sock 0).status = .established ∧ (s.sock 0).conn = some 0
    ∧ 1 ≤ 1 ∧ 1 ≤ [(0x41 : Byte)].length ∧ 1 ≤ s.rxSize 0 - ((s.sock 0).rxWr - (s.sock 0).rxRd).toNat := by
  decide +kernel

theorem witness_UdpReceiveCommits :
    let s := withSock 0 { udpSock with rxWr := 2040 }
    s.alive = true ∧ (s.sock 0).recvEnabled = true ∧ (s.sock 0).status = .udp ∧ (s.sock 0).conn = some 0
    ∧ 8 ≤ s.rxSize 0 - ((s.sock 0).rxWr - (s.sock 0).rxRd).toNat := by decide +kernel

theorem witness_EndOfStreamSchedulesAClose :
    let s := withSock 0 tcpSock
    s.alive = true ∧ (s.sock 0).recvEnabled = true ∧ (s.sock 0).status = .established ∧ (s.sock 0).conn = some 0
    ∧ (s.sock 0).op = .none := by decide +kernel

theorem witness_ReceiveErrorTimesOut :
    let ok (s : State) : Prop := s.alive = true ∧ (s.sock 0).recvEnabled = true
      ∧ ((s.sock 0).status = .established ∨ (s.sock 0).status = .udp) ∧ (s.sock 0).conn = some 0
    ok (withSock 0 tcpSock) ∧ ok (withSock 0 udpSock) := by intro ok; constructor <;> decide +kernel

theorem witness_DhcpDeliveryCommits :
    let s := { withSock 0 { udpSock with rxWr := 1740 } with dhcp := some x34, now := 6000 }
    s.alive = true ∧ s.dhcp = some x34 ∧ x34.deliverable = true
    ∧ ¬ (x34.state = .awaitingRequest ∧ x34.deadline < s.now) ∧ x34.sock = 0 ∧ (s.sock 0).recvEnabled = true
    ∧ (s.sock 0).status = .udp ∧ x34.buf.length = s.cfg.dhcpFrameLen
    ∧ 8 + s.cfg.dhcpFrameLen ≤ s.rxSize 0 - ((s.sock 0).rxWr - (s.sock 0).rxRd).toNat := by decide +kernel

theorem witness_DiscoverCreatesTheExchange :
    (dhcpAt 6001).alive = true ∧ (toAll 0 (dhcpAt 6001)).sDipr 0 = ⟨0xFF, 0xFF, 0xFF, 0xFF⟩
    ∧ (∀ x, (dhcpAt 6001).dhcp = some x → x.state = .awaitingRequest ∧ x.deadline < (dhcpAt 6001).now)
    ∧ State.reset.dhcp = none ∧ State.reset.sDipr 0 ≠ ⟨0xFF, 0xFF, 0xFF, 0xFF⟩
    ∧ (toHost 0 0xFF State.reset).sDipr 0 = ⟨0xC0, 0xA8, 0x01, 0xFF⟩
    ∧ (0xC0 ||| 0xFF : Byte) = 0xFF ∧ (0xFF ||| 0x00 : Byte) = 0xFF
    ∧ (toHost 0 0xFF State.reset).cSubr = ⟨0xFF, 0xFF, 0xFF, 0x00⟩ := by
  refine ⟨by decide +kernel, by decide +kernel, ?_, by decide +kernel⟩
  intro x hx
  cases hx
  decide +kernel

theorem witness_OfferFrameIsAsTabled :
    f30.chaddr.length = 16 ∧ 274 ≤ Config.defaults.dhcpFrameLen ∧ 274 ≤ { Config.defaults with dhcpFrameLen := 274 }.dhcpFrameLen := by
  decide +kernel

theorem witness_RequestTurnsOfferIntoAck :
    (dhcpAt 6000).alive = true ∧ (dhcpAt 6000).dhcp = some x34 ∧ x34.state = .awaitingRequest
    ∧ (dhcpAt 6000).now ≤ x34.deadline ∧ f32.xid = x34.xid ∧ f32.chaddr = x34.chaddr
    ∧ f32.serverId = some x34.serverIp ∧ ¬ (dhcpAt 6001).now ≤ x34.deadline ∧ State.reset.dhcp = none := by
  decide +kernel

theorem witness_ExpiryFreesTheSlot :
    (∃ x, (dhcpAt 6001).dhcp = some x ∧ x.state = .awaitingRequest ∧ x.deadline < (dhcpAt 6001).now)
    ∧ ¬ (∃ x, (dhcpAt 6000).dhcp = some x ∧ x.state = .awaitingRequest ∧ x.deadline < (dhcpAt 6000).now)
    ∧ (dhcpAt 6001).alive = true ∧ (dhcpAt 6000).alive = true := by
  refine ⟨⟨x34, by decide +kernel⟩, ?_, by decide +kernel⟩
  rintro ⟨x, hx, -, h⟩
  cases hx
  exact absurd h (by decide +kernel)

theorem witness_EchoRequestAppendsAPing : s48.alive = true := by decide +kernel

theorem witness_ProbesAndExpiryMovePings :
    let g := { g48 with outcome := .pending }
    let s := { s48 with pings := [g48, g] }
    s.alive = true ∧ s.pings = [] ++ g48 :: [g] ∧ g48.outcome = .reachable
    ∧ s.pings = [g48] ++ g :: [] ∧ g.outcome = .pending := by decide +kernel

theorem witness_EchoReplyIsDelivered :
    let s := { toHost 2 0x01 (State.reset.setSock 2 { rawSock with rxWr := 2030 }) with pings := [g48] }
    s.alive = true ∧ (s.sock 2).recvEnabled = true ∧ (s.sock 2).status = .ipraw ∧ s.pings = [] ++ g48 :: []
    ∧ g48.outcome = .reachable ∧ g48.target = s.sDipr 2
    ∧ (∀ h ∈ ([] : List Ping), ¬ (h.outcome = .reachable ∧ h.target = s.sDipr 2))
    ∧ 8 ≤ g48.payload.length
    ∧ s.cfg.iprawInfoHdr + g48.payload.length
        ≤ s.rxSize 2 - ((s.sock 2).rxWr - (s.sock 2).rxRd).toNat := by decide +kernel

theorem witness_EchoReplyVerifies : 8 ≤ [(0x08 : Byte), 0, 0, 0, 0, 0, 0, 0].length := by decide +kernel

theorem witness_FacadeCommandsAnswer :
    State.reset.alive = true ∧ State.reset.fa.t0 ≤ State.reset.now ∧ (7 : Byte).toNat < 8 ∧ 8 ≤ (8 : Byte).toNat := by
  decide +kernel

theorem witness_FacadeBlockReadIsASnapshot :
    State.reset.alive = true ∧ 2 < (after (exec (.fRdbytes 3) State.reset)).fa.out.length := by decide +kernel

theorem witness_FacadeBlockWriteIsBusWrites :
    let s := faState 0x7FFF 0 0
    s.alive = true ∧ [(0x41 : Byte), 0x42].length < 65536
    ∧ ∀ i, i < [(0x41 : Byte), 0x42].length → NeverRefused s.cfg.map (s.fa.addr + BitVec.ofNat 16 i) := by unfold NeverRefused; decide +kernel

/-- Every port number. -/
def allPorts : List Half := (List.range (2 ^ 16)).map (BitVec.ofNat 16)

theorem mem_allPorts (p : Half) : p ∈ allPorts := by
  rw [allPorts, List.mem_map]
  exact ⟨p.toNat, List.mem_range.mpr p.isLt, by simp⟩

theorem witness_PortAllocationReserves :
    (State.reset.alive = true ∧ ∃ p : Half, p ≠ 0 ∧ p ∉ State.reset.prov)
    ∧ ({ State.reset with prov := allPorts } : State).alive = true
    ∧ ∀ p : Half, p ≠ 0 → p ∈ ({ State.reset with prov := allPorts } : State).prov :=
  ⟨⟨rfl, 1, by decide, by decide⟩, rfl, by
    intro p _
    dsimp only
    exact mem_allPorts p⟩

theorem witness_FacadeFramingIsByteWise : State.reset.alive = true := by decide +kernel

theorem witness_StepRunsTheDecodedUnit :
    decode State.reset.cfg (.fcmd [0x02, 0x24, 0x04]) = .ok (.fSetaddr 0x0424)
    ∧ decode State.reset.cfg (.event (.rxTcp 0 [] 0)) = .ok (.rxTcp 0 [] 0)
    ∧ State.reset.fa.phase = .idle ∧ State.reset.inputs = [] := by decide +kernel

theorem witness_DecodeOfEncodeIsIdentity :
    let c := { Config.defaults with dhcpFrameLen := 500 }
    c.Tabled ∧ Instr.wf c (.wr 0x7FFF 0x01) = true ∧ Instr.wf c (.dhcpRequest 0 f32) = true := by exact ⟨⟨rfl, rfl, rfl⟩, by decide +kernel⟩

/-- `busyState` satisfies the invariant. -/
theorem busyState_inv : busyState.Inv where
  config := ⟨rfl, rfl, rfl⟩
  memWf := by decide +kernel
  memStored := by decide +kernel
  resetBit := by decide +kernel
  socks := by decide +kernel
  commands := by decide +kernel
  handles := by decide +kernel
  dhcp := by intro x hx; cases hx; decide +kernel
  pings := by decide +kernel
  ports := by decide +kernel
  facade := by decide +kernel

theorem witness_EveryStepKeepsTheInvariant :
    busyState.Inv ∧ step { busyState with inputs := [.op (.event (.rxTcp 0 [0x41] 1))] }
      = .next (after (step { busyState with inputs := [.op (.event (.rxTcp 0 [0x41] 1))] })) :=
  ⟨busyState_inv, rfl⟩

theorem witness_ReceiveRingsNeverOverflow :
    busyState.Inv ∧ busyState.rxBounded ∧ step busyState = .next busyState
      ∧ busyState.load 0x001A = busyState.load 0x001A :=
  ⟨busyState_inv, by unfold State.rxBounded; decide +kernel, rfl, rfl⟩

theorem witness_OnlyListedOperationsRaiseBits :
    exec (.rxTcp 0 [0x41] 1) busyState = .next (after (exec (.rxTcp 0 [0x41] 1) busyState))
      ∧ (busyState.sock 0).ir.getLsbD 2 = false
      ∧ ((after (exec (.rxTcp 0 [0x41] 1) busyState)).sock 0).ir.getLsbD 2 = true :=
  ⟨rfl, by decide +kernel, by decide +kernel⟩

theorem witness_StatusMovesFollowTheTable :
    busyState.Inv ∧ exec (.scmdClose 0) busyState = .next (after (exec (.scmdClose 0) busyState))
      ∧ exec (.fWrbytes []) busyState = .next (after (exec (.fWrbytes []) busyState))
      ∧ (∃ data, Instr.fWrbytes [] = .fWrbytes data)
      ∧ ∀ data, Instr.scmdClose 0 ≠ .fWrbytes data :=
  ⟨busyState_inv, rfl, rfl, ⟨[], rfl⟩, fun _ => by simp⟩

end Sys2Proof.Tests
end

section
/-! SUPPORT. 10_state.md R24, R45: what the device-owned registers and the summary register show in every state. -/
namespace Sys2Proof.Machine

open Sys2Proof

/-! ## The device-owned registers of a socket (R44, R45, R46, R61) -/

/-- `S[n].TX_RD`. -/
theorem peek16_txRd (s : State) (h : s.cfg.Tabled) (n : SockId) :
    s.peek16 (blockAddr n 0x22) = (s.sock n).txRd := by
  rw [peek16_blockAddr, peek_txRdHi s h, peek_txRdLo s h, half_hi_lo]

/-- `S[n].RX_WR`. -/
theorem peek16_rxWr (s : State) (h : s.cfg.Tabled) (n : SockId) :
    s.peek16 (blockAddr n 0x2A) = (s.sock n).rxWr := by
  rw [peek16_blockAddr, peek_rxWrHi s h, peek_rxWrLo s h, half_hi_lo]

/-- The status codes of 30_encoding.md R114, row by row. -/
theorem statusCode_tabled :
    ∀ e ∈ [(Status.closed, (0x00 : Byte)), (.init, 0x13), (.listen, 0x14), (.established, 0x17),
      (.closing, 0x1A), (.closeWait, 0x1C), (.udp, 0x22), (.ipraw, 0x32)],
      statusCode .tabled e.1 = e.2 := by
  decide

/-- Settles O2: each register is the pair of its two device-owned bytes, and those are views of the hidden record. -/
theorem deviceRegistersShowHiddenState : Obligations.DeviceRegistersShowHiddenState := by
  intro s n h
  refine ⟨peek16_txFsr s h n, peek16_rxRsr s h n, peek16_txRd s h n, peek16_rxWr s h n, peek_ir s h n, ?_⟩
  intro e row status
  calc s.peek (blockAddr n 0x03)
      = statusCode s.cfg.codes (s.sock n).status := peek_sr s h n
    _ = statusCode .tabled e.1 := by rw [h.codes, status]
    _ = e.2 := statusCode_tabled e row

/-! ## The summary `C.IR` and the interrupt outputs (R24; 60_exceptions.md R403, R404) -/

/-- A summary byte has one bit at most, the socket's own. -/
theorem getLsbD_summaryBit (ir : Byte) (n i : Nat) (hi : i < 8) :
    (summaryBit ir n).getLsbD i = (decide (ir ≠ 0) && decide (i = n)) := by
  unfold summaryBit
  split
  case isTrue zero => simp [zero]
  case isFalse nonzero =>
    rw [BitVec.natCast_eq_ofNat, BitVec.getLsbD_ofNat, Nat.one_shiftLeft, Nat.testBit_two_pow]
    simpa [hi, @eq_comm _ n i] using fun _ => nonzero

/-- Bit `i` of `C.IR` below 8: one of the four sockets is number `i` and has a bit set. -/
theorem getLsbD_cIr (s : State) (i : Nat) (hi : i < 8) :
    s.cIr.getLsbD i =
      (decide ((s.sock 0).ir ≠ 0) && decide (i = 0) || decide ((s.sock 1).ir ≠ 0) && decide (i = 1)
        || decide ((s.sock 2).ir ≠ 0) && decide (i = 2) || decide ((s.sock 3).ir ≠ 0) && decide (i = 3)) := by
  simp only [State.cIr, deriveIr, BitVec.getLsbD_or, getLsbD_summaryBit _ _ _ hi]

theorem getLsbD_cIr_sock (s : State) (n : SockId) :
    s.cIr.getLsbD n.val = decide ((s.sock n).ir ≠ 0) := by
  rw [getLsbD_cIr s n.val (by omega)]
  match n with
  | 0 | 1 | 2 | 3 => simp

/-- Bits 7:4 of `C.IR` are 0. -/
theorem getLsbD_cIr_high (s : State) (i : Nat) (hi : 4 ≤ i) : s.cIr.getLsbD i = false := by
  by_cases lt : i < 8
  · rw [getLsbD_cIr s i lt]
    simp [show i ≠ 0 by omega, show i ≠ 1 by omega, show i ≠ 2 by omega, show i ≠ 3 by omega]
  · exact BitVec.getLsbD_of_ge _ _ (by omega)

theorem cIr_eq_zero_iff (s : State) : s.cIr = 0 ↔ ∀ n : SockId, (s.sock n).ir = 0 := by
  constructor
  · intro zero n
    have bit := getLsbD_cIr_sock s n
    simpa [zero] using bit
  · intro zero
    simp [State.cIr, deriveIr, summaryBit, zero]

/-- Output `irq` is the level of the four interrupt registers together. -/
theorem irq_eq_decide (s : State) : s.irq = decide (∃ n : SockId, (s.sock n).ir ≠ 0) := by
  rw [Bool.eq_iff_iff, decide_eq_true_eq, State.irq, bne_iff_ne, ne_eq, cIr_eq_zero_iff, not_forall]

/-- Output `sock_irq[n]` is the level of one interrupt register. -/
theorem sockIrq_eq_decide (s : State) (n : SockId) : s.sockIrq n = decide ((s.sock n).ir ≠ 0) := by
  rw [Bool.eq_iff_iff, decide_eq_true_eq, State.sockIrq, bne_iff_ne]

/-- 40_register_access.md R156: a live block ignores a write to `C.IR`. -/
theorem exec_wrCIr_alive (s : State) (alive : s.alive = true) (d : Byte) : exec (.wrCIr d) s = .next s :=
  whenAlive_alive s (.next s) alive

/-- Settles O3: `C.IR` and both outputs are read off the same four interrupt registers. -/
theorem commonInterruptSummarises : Obligations.CommonInterruptSummarises := by
  intro s h
  simp only [peek_cIr s h, peek_ir s h]
  exact ⟨getLsbD_cIr_sock s, getLsbD_cIr_high s, sockIrq_eq_decide s, irq_eq_decide s, exec_wrCIr_alive s⟩

end Sys2Proof.Machine
end

section
/-! SUPPORT. 20_memory.md R81; 40_register_access.md R151, R152: what a read answers and what a write does, inside the
window and outside it. -/
namespace Sys2Proof.Machine

open Sys2Proof

/-! ## The two sides of the window's end -/

/-- R151 inside the window: the answer is the visible byte. -/
theorem busRead_inside (s : State) (addr : Half) (inside : busAddr s.cfg.map addr < Config.winSize) :
    s.busRead addr = s.peek (busAddr s.cfg.map addr) :=
  if_neg (Nat.not_le_of_lt inside)

/-- R81: the answer outside the window is 0x00. -/
theorem busRead_outside (s : State) (addr : Half) (outside : Config.winSize ≤ busAddr s.cfg.map addr) :
    s.busRead addr = 0x00 :=
  if_pos outside

/-- R81: no register lies outside the window. -/
theorem locate_outside (m : Config.AddressMap) (a : Nat) (outside : Config.winSize ≤ a) :
    locate m a = .outside :=
  if_pos outside

/-! ## The two bus operations of a live block (R151, R152) -/

theorem exec_rd_alive (s : State) (alive : s.alive = true) (addr : Half) :
    exec (.rd addr) s = .next { s with rdata := s.busRead addr } :=
  whenAlive_alive s _ alive

/-- `WR` is `BusWrite` (R152). -/
theorem exec_wr_eq_busWrite (s : State) (addr : Half) (d : Byte) : exec (.wr addr d) s = busWrite addr d s := rfl

/-- R81: a write outside the window does nothing, whatever the byte. -/
theorem exec_wr_outside (s : State) (alive : s.alive = true) (addr : Half) (d : Byte)
    (outside : Config.winSize ≤ busAddr s.cfg.map addr) : exec (.wr addr d) s = .next s := by
  rw [exec_wr_eq_busWrite, busWrite, whenAlive_alive s _ alive, locate_outside _ _ outside]

/-- Settles O1: a read stores what `busRead` answers on its side of the window's end, and a write outside meets no
register. -/
theorem readsAnswerAndOutsideIsInert : Obligations.ReadsAnswerAndOutsideIsInert := by
  intro addr s alive
  refine ⟨fun inside => ?_, fun outside => ⟨?_, fun d => exec_wr_outside s alive addr d outside⟩⟩
  · rw [exec_rd_alive s alive, busRead_inside s addr inside]
  · rw [exec_rd_alive s alive, busRead_outside s addr outside]

end Sys2Proof.Machine
end

section
/-! SUPPORT. 40_register_access.md R153 to R156: the writes that do more than store, or nothing at all. -/
namespace Sys2Proof.Machine

open Sys2Proof

/-! ## Generic writes to a socket block (R152) -/

/-- The bus carries the address of a socket block's byte as it is. -/
theorem busAddr_blockAddr (s : State) (h : s.cfg.Tabled) (n : SockId) (off : Nat) (lt : off < 0x100) :
    busAddr s.cfg.map (BitVec.ofNat 16 (blockAddr n off)) = blockAddr n off := by
  have inWord : blockAddr n off < 2 ^ 16 := Nat.lt_trans (blockAddr_lt n off lt) (by omega)
  rw [h.map, busAddr_tabled, BitVec.toNat_ofNat, Nat.mod_eq_of_lt inWord]

/-- In the tabled layout a write transaction to a socket block meets the register at its offset. -/
theorem locate_busAddr_blockAddr (s : State) (h : s.cfg.Tabled) (n : SockId) (off : Nat) (lt : off < 0x100) :
    locate s.cfg.map (busAddr s.cfg.map (BitVec.ofNat 16 (blockAddr n off))) = offsetLoc n off := by
  rw [busAddr_blockAddr s h n off lt, h.map, locate_blockAddr n off lt]

/-- R156: the device-owned registers ignore a write. -/
theorem exec_wr_device (s : State) (alive : s.alive = true) (addr : Half) (d : Byte) (n : SockId) (r : DevByte)
    (device : locate s.cfg.map (busAddr s.cfg.map addr) = .sDev n r) : exec (.wr addr d) s = .next s := by
  rw [exec_wr_eq_busWrite, busWrite, whenAlive_alive s _ alive, device]

/-- R156: `C.IR` ignores a write. -/
theorem exec_wr_cIr (s : State) (alive : s.alive = true) (addr : Half) (d : Byte)
    (common : locate s.cfg.map (busAddr s.cfg.map addr) = .cIr) : exec (.wr addr d) s = .next s := by
  rw [exec_wr_eq_busWrite, busWrite, whenAlive_alive s _ alive, common]

/-- R152, last arm: plain storage takes the byte. -/
theorem exec_wr_plain (s : State) (alive : s.alive = true) (addr : Half) (d : Byte)
    (plain : locate s.cfg.map (busAddr s.cfg.map addr) = .plain) :
    exec (.wr addr d) s = .next (s.poke (busAddr s.cfg.map addr) d) := by
  rw [exec_wr_eq_busWrite, busWrite, whenAlive_alive s _ alive, plain]

/-- The offsets of access `DEV` select device-owned bytes (10_state.md R40). -/
theorem offsetLoc_devOffsets (n : SockId) (off : Nat) (dev : off ∈ devOffsets) :
    ∃ r, offsetLoc n off = .sDev n r := by
  simp only [devOffsets, List.mem_cons, List.not_mem_nil, or_false] at dev
  rcases dev with rfl | rfl | rfl | rfl | rfl | rfl | rfl | rfl | rfl
  exacts [⟨.sr, rfl⟩, ⟨.txFsrHi, rfl⟩, ⟨.txFsrLo, rfl⟩, ⟨.txRdHi, rfl⟩, ⟨.txRdLo, rfl⟩, ⟨.rxRsrHi, rfl⟩,
    ⟨.rxRsrLo, rfl⟩, ⟨.rxWrHi, rfl⟩, ⟨.rxWrLo, rfl⟩]

theorem devOffsets_lt : ∀ off ∈ devOffsets, off < 0x100 := by decide

/-! ## Device-owned registers (R156) -/

theorem exec_wrSnSr_alive (s : State) (alive : s.alive = true) (n : SockId) (d : Byte) :
    exec (.wrSnSr n d) s = .next s :=
  whenAlive_alive s (.next s) alive

/-- Settles O6: the addresses select device-owned registers, and no arm of a write does anything to those. -/
theorem deviceOwnedWritesAreIgnored : Obligations.DeviceOwnedWritesAreIgnored := by
  intro d s alive h
  have common : locate s.cfg.map (busAddr s.cfg.map 0x0015) = .cIr := by rw [h.map]; rfl
  refine ⟨exec_wrCIr_alive s alive d, exec_wr_cIr s alive _ d common, fun n => ⟨exec_wrSnSr_alive s alive n d, ?_⟩⟩
  intro off dev
  obtain ⟨r, device⟩ := offsetLoc_devOffsets n off dev
  exact exec_wr_device s alive _ d n r ((locate_busAddr_blockAddr s h n off (devOffsets_lt off dev)).trans device)

/-! ## The acknowledge (R155) -/

theorem exec_wrSnIr_alive (s : State) (alive : s.alive = true) (n : SockId) (v : Byte) :
    exec (.wrSnIr n v) s = .next (s.ackInt n v) :=
  whenAlive_alive s _ alive

/-- The five interrupt bits of the tables (30_encoding.md R117) fill bits 4:0. -/
theorem intMask_tabled (s : State) (h : s.cfg.Tabled) : s.cfg.codes.intMask = 0x1F := by
  rw [h.codes]
  decide

/-- The record an acknowledge leaves, in the tabled layout. -/
theorem sock_ackInt_tabled (s : State) (h : s.cfg.Tabled) (n : SockId) (v : Byte) :
    (s.ackInt n v).sock n = { s.sock n with ir := (s.sock n).ir &&& ~~~v &&& 0x1F } := by
  rw [State.sock_ackInt, if_pos rfl, intMask_tabled s h]

/-- Settles O10: the summary and the outputs are views of the one record that an acknowledge replaces. -/
theorem acknowledgeClearsWrittenBits : Obligations.AcknowledgeClearsWrittenBits := by
  intro n v s alive h
  have record := sock_ackInt_tabled s h n v
  have ht : (s.ackInt n v).cfg.Tabled := h
  have ir : ((s.ackInt n v).sock n).ir = (s.sock n).ir &&& ~~~v &&& 0x1F := by rw [record]
  refine ⟨s.ackInt n v, exec_wrSnIr_alive s alive n v, record, fun m other => ?_, ?_, ?_, ?_, ?_, fun _ => rfl, rfl⟩
  · rw [State.sock_ackInt, if_neg other]
  · rw [peek_ir _ ht, peek_ir s h, ir]
  · rw [peek_cIr _ ht, getLsbD_cIr_sock, ir]
  · rw [sockIrq_eq_decide, ir]
  · rw [peek_cIr _ ht, Bool.eq_iff_iff, decide_eq_true_eq, State.irq, bne_iff_ne]

/-! ## The commit points (R154) -/

/-- What a commit point leaves: the byte `v` stored at `a`, the record of socket n replaced by `k`, nothing else. -/
structure CommitEffect (n : SockId) (a : Nat) (v : Byte) (k : Sock) (s t : State) : Prop where
  record : t.sock n = k
  otherRecords : ∀ m, m ≠ n → t.sock m = s.sock m
  stored : t.load a = v
  bytes : ∀ b, b ≠ a → t.load b = s.load b
  rest : t = { s with mem := t.mem, socks := t.socks }

theorem commitEffect_of (n : SockId) (a : Nat) (v : Byte) (k : Sock) (s : State) :
    CommitEffect n a v k s ((s.poke a v).setSock n k) where
  record := by simp
  otherRecords m other := by simp [other]
  stored := by simp
  bytes b other := by simp [other]
  rest := rfl

/-- No address of a socket block is one of the common block's. -/
theorem ne_blockAddr (a : Nat) (common : a < 0x0400) (n : SockId) (off : Nat) : a ≠ blockAddr n off := by
  simp only [blockAddr]
  omega

theorem CommitEffect.tabled {n : SockId} {a : Nat} {v : Byte} {k : Sock} {s t : State}
    (e : CommitEffect n a v k s t) (h : s.cfg.Tabled) : t.cfg.Tabled := by
  rw [e.rest]
  exact h

/-- A commit in a socket block leaves the TX ring sizes, which the selector `C.TMSR` tells. -/
theorem CommitEffect.txSize_eq {n m : SockId} {off : Nat} {v : Byte} {k : Sock} {s t : State}
    (e : CommitEffect n (blockAddr n off) v k s t) (h : s.cfg.Tabled) : t.txSize m = s.txSize m := by
  have cfg : t.cfg = s.cfg := by rw [e.rest]
  have selector : s.cfg.map.cTmsr = 0x001B := by rw [h.map]; rfl
  rw [State.txSize, State.txSize, cfg, selector, e.bytes _ (ne_blockAddr _ (by omega) n off)]

theorem exec_wrSnTxWrLo_alive (s : State) (alive : s.alive = true) (n : SockId) (v : Byte) :
    exec (.wrSnTxWrLo n v) s = .next (s.commitTxWr n v) :=
  whenAlive_alive s _ alive

theorem exec_wrSnRxRdLo_alive (s : State) (alive : s.alive = true) (n : SockId) (v : Byte) :
    exec (.wrSnRxRdLo n v) s = s.commitRxRd n v :=
  whenAlive_alive s _ alive

/-- The commit of `S[n].TX_WR`, in the tabled layout. -/
theorem commitTxWr_tabled (s : State) (h : s.cfg.Tabled) (n : SockId) (v : Byte) :
    CommitEffect n (blockAddr n 0x25) v { s.sock n with txWr := half (s.load (blockAddr n 0x24)) v } s
      (s.commitTxWr n v) := by
  simp only [State.commitTxWr, h.map, sockAddr_tabled]
  exact commitEffect_of n _ v _ s

/-- Hazard H6, in the tabled layout: a commit of `S[n].RX_RD` past `RX_WR` is refused. -/
theorem commitRxRd_past (s : State) (h : s.cfg.Tabled) (n : SockId) (v : Byte)
    (past : s.rxUsed n < (half (s.load (blockAddr n 0x28)) v - (s.sock n).rxRd).toNat) :
    s.commitRxRd n v = .refused .rxReadPastWrite := by
  simp only [State.commitRxRd, h.map, sockAddr_tabled]
  exact if_pos past

/-- Any other commit of `S[n].RX_RD`, in the tabled layout. -/
theorem commitRxRd_within (s : State) (h : s.cfg.Tabled) (n : SockId) (v : Byte)
    (within : ¬ s.rxUsed n < (half (s.load (blockAddr n 0x28)) v - (s.sock n).rxRd).toNat) :
    ∃ t, s.commitRxRd n v = .next t
      ∧ CommitEffect n (blockAddr n 0x29) v { s.sock n with rxRd := half (s.load (blockAddr n 0x28)) v } s t := by
  simp only [State.commitRxRd, h.map, sockAddr_tabled]
  exact ⟨_, if_neg within, commitEffect_of n _ v _ s⟩

/-- `TX_FSR` follows the write cursor a commit leaves. -/
theorem CommitEffect.peek16_txFsr_eq {n : SockId} {off : Nat} {v : Byte} {k : Sock} {s t : State}
    (e : CommitEffect n (blockAddr n off) v k s t) (h : s.cfg.Tabled) :
    (t.peek16 (blockAddr n 0x20)).toNat = s.txSize n - (k.txWr - k.txRd).toNat := by
  rw [peek16_txFsr t (e.tabled h), State.txFree, State.txUsed, e.txSize_eq h, e.record]

/-- `RX_RSR` follows the read cursor a commit leaves. -/
theorem CommitEffect.peek16_rxRsr_eq {n : SockId} {off : Nat} {v : Byte} {k : Sock} {s t : State}
    (e : CommitEffect n (blockAddr n off) v k s t) (h : s.cfg.Tabled) :
    t.peek16 (blockAddr n 0x26) = k.rxWr - k.rxRd := by
  rw [peek16_rxRsr t (e.tabled h), e.record]

/-- The high bytes of `TX_WR` and `RX_RD` are plain storage. -/
theorem exec_wr_cursorHigh (s : State) (alive : s.alive = true) (h : s.cfg.Tabled) (n : SockId) (v : Byte)
    (off : Nat) (high : off ∈ [0x24, 0x28]) :
    exec (.wr (BitVec.ofNat 16 (blockAddr n off)) v) s = .next (s.poke (blockAddr n off) v) := by
  have lt : off < 0x100 := by revert off; decide
  have plain : offsetLoc n off = .plain := by
    simp only [List.mem_cons, List.not_mem_nil, or_false] at high
    rcases high with rfl | rfl <;> rfl
  rw [exec_wr_plain s alive _ v ((locate_busAddr_blockAddr s h n off lt).trans plain),
    busAddr_blockAddr s h n off lt]

/-- What storing one byte leaves. -/
theorem poke_stores (s : State) (a : Nat) (v : Byte) :
    (s.poke a v).load a = v ∧ (∀ b, b ≠ a → (s.poke a v).load b = s.load b)
      ∧ s.poke a v = { s with mem := (s.poke a v).mem } :=
  ⟨by simp, fun b other => by simp [other], rfl⟩

/-- Settles O9: the two commit points differ in the guard of hazard H6 only; the high bytes are plain storage. -/
theorem lowByteCommitsTheCursor : Obligations.LowByteCommitsTheCursor := by
  intro n v s alive h
  refine ⟨?_, ?_, fun off high => ⟨_, exec_wr_cursorHigh s alive h n v off high, poke_stores s _ v⟩⟩
  · have e := commitTxWr_tabled s h n v
    exact ⟨_, exec_wrSnTxWrLo_alive s alive n v, e.record, e.otherRecords, e.stored, e.bytes, e.peek16_txFsr_eq h,
      e.rest⟩
  · have used : (s.peek16 (blockAddr n 0x26)).toNat = s.rxUsed n := by rw [peek16_rxRsr s h, State.rxUsed]
    rw [exec_wrSnRxRdLo_alive s alive, used]
    intro p
    split
    case isTrue past => exact commitRxRd_past s h n v past
    case isFalse within =>
      obtain ⟨t, next, e⟩ := commitRxRd_within s h n v within
      exact ⟨t, next, e.record, e.otherRecords, e.stored, e.bytes, e.peek16_rxRsr_eq h, e.rest⟩

/-! ## The mode register (R153; 70_reset_and_hazards.md R441) -/

theorem exec_wrCMr_alive (s : State) (alive : s.alive = true) (v : Byte) :
    exec (.wrCMr v) s = .next (s.writeCMr v) :=
  whenAlive_alive s _ alive

/-- A common register lies in no socket block. -/
theorem not_cursor_of_common (a : Nat) (common : a < 0x0400) :
    ¬ ∃ n : SockId, ∃ off ∈ cursorOffsets, a = blockAddr n off := by
  rintro ⟨n, off, -, e⟩
  exact ne_blockAddr a common n off e

/-- Apart from the common registers `SoftReset()` clears the stored command and cursor bytes and keeps every other
byte. -/
theorem load_softReset_elsewhere (s : State) (h : s.cfg.Tabled) (a : Nat) (elsewhere : a ∉ commonResetAddrs) :
    s.softReset.load a =
      if ∃ n : SockId, ∃ off ∈ sockResetOffsets, a = blockAddr n off then 0 else s.load a := by
  have offsets : (∃ n : SockId, ∃ off ∈ sockResetOffsets, a = blockAddr n off) ↔
      (∃ n : SockId, ∃ off ∈ cursorOffsets, a = blockAddr n off) ∨ ∃ n : SockId, a = blockAddr n 0x01 := by
    simp only [sockResetOffsets, cursorOffsets, List.exists_mem_cons_iff, ← exists_or, or_comm]
  simp only [commonResetAddrs, List.mem_cons, List.not_mem_nil, or_false, not_or] at elsewhere
  simp only [State.load_softReset s h, elsewhere, if_false, offsets, ite_or]

/-- No register of a socket block is among the common ones a reset writes. -/
theorem blockAddr_not_common (n : SockId) (off : Nat) : blockAddr n off ∉ commonResetAddrs := by
  intro common
  have below : ∀ a ∈ commonResetAddrs, a < 0x0400 := by decide
  exact ne_blockAddr _ (below _ common) n off rfl

/-- `SoftReset()` leaves what R441 lists, in the tabled layout. -/
theorem softResetEffect_softReset (s : State) (h : s.cfg.Tabled) : SoftResetEffect s s.softReset where
  records := s.softReset_sock
  mode := by simp [State.load_softReset s h, not_cursor_of_common]
  gateway := by simp [State.loadQuad, State.load_softReset s h, not_cursor_of_common]
  subnet := by simp [State.loadQuad, State.load_softReset s h, not_cursor_of_common]
  mac := by simp [macBytes, State.load_softReset s h, not_cursor_of_common]
  source := by simp [State.loadQuad, State.load_softReset s h, not_cursor_of_common]
  retryTime := by simp [State.load16, State.load_softReset s h, not_cursor_of_common]
  retryCount := by simp [State.load_softReset s h, not_cursor_of_common]
  rxSelectors := by simp [State.load_softReset s h, not_cursor_of_common]
  txSelectors := by simp [State.load_softReset s h, not_cursor_of_common]
  pppTimer := by simp [State.load_softReset s h, not_cursor_of_common]
  sockBytes n off cleared := by
    rw [load_softReset_elsewhere s h _ (blockAddr_not_common n off), if_pos ⟨n, off, cleared, rfl⟩]
  kept a elsewhere other := by
    rw [load_softReset_elsewhere s h a elsewhere, if_neg]
    rintro ⟨n, off, cleared, e⟩
    exact other n off cleared e
  rest := by
    rw [State.softReset_fa]
    exact s.softReset_rest

/-- Settles O8: bit 7 runs `SoftReset()`, which leaves the facade alone, and any other byte is stored. -/
theorem modeRegisterStoresOrResets : Obligations.ModeRegisterStoresOrResets := by
  intro v s alive h
  refine ⟨_, exec_wrCMr_alive s alive v, ?_⟩
  rw [State.writeCMr]
  split
  case isTrue reset => exact ⟨softResetEffect_softReset s h, s.softReset_fa⟩
  case isFalse store =>
    have address : s.cfg.map.cMr = 0x0000 := by rw [h.map]; rfl
    rw [address]
    exact poke_stores s 0x0000 v

end Sys2Proof.Machine
end

section
/-! SUPPORT. 41_ring_buffers.md R181, R182: the placement of the rings in a bank, for every selector value. -/
namespace Sys2Proof.Machine

open Sys2Proof

/-! ## Requested sizes and offsets (R181) -/

/-- The shifts of R181 as arithmetic: field k of the selector is its digit k in base 4. -/
theorem reqSize_eq (sel : Byte) (k : Nat) : reqSize sel k = 1024 * 2 ^ (sel.toNat / 4 ^ k % 4) := by
  rw [reqSize, Nat.shiftLeft_eq, Nat.shiftRight_eq_div_pow, Nat.pow_mul]

/-- The sizes a selector can request. -/
theorem reqSize_mem (sel : Byte) (k : Nat) : reqSize sel k ∈ [1024, 2048, 4096, 8192] := by
  have sizes : ∀ field < 4, 1024 * 2 ^ field ∈ [1024, 2048, 4096, 8192] := by decide
  rw [reqSize_eq]
  exact sizes _ (Nat.mod_lt _ (by decide))

/-- The offset sums the requests of all lower sockets, whether or not their rings fit. -/
theorem ringOffset_eq_sum (sel : Byte) (k : Nat) : ringOffset sel k = ((List.range k).map (reqSize sel)).sum := by
  induction k with
  | zero => rfl
  | succ k ih => simp [ringOffset, ih, List.range_succ]

theorem ringOffset_mono (sel : Byte) : Monotone (ringOffset sel) :=
  monotone_nat_of_le_succ fun k => Nat.le_add_right (ringOffset sel k) (reqSize sel k)

/-! ## Effective sizes (R182) -/

theorem effectiveSize_le_reqSize (bank : Nat) (sel : Byte) (n : SockId) :
    effectiveSize bank sel n ≤ reqSize sel n.val := by
  rw [effectiveSize]
  split
  case isTrue => exact Nat.le_refl _
  case isFalse => exact Nat.zero_le _

/-- A ring has its requested size or none (R180). -/
theorem effectiveSize_mem (bank : Nat) (sel : Byte) (n : SockId) :
    effectiveSize bank sel n ∈ [0, 1024, 2048, 4096, 8192] := by
  rw [effectiveSize]
  split
  case isTrue => exact List.mem_cons_of_mem 0 (reqSize_mem sel n.val)
  case isFalse => exact List.mem_cons_self

/-! ## Placement of a ring in the bank at `base` -/

/-- A ring that is not disabled ends inside its bank. -/
theorem ring_end_le_bank_end (base bank : Nat) (sel : Byte) (n : SockId) (enabled : effectiveSize bank sel n ≠ 0) :
    base + ringOffset sel n.val + effectiveSize bank sel n ≤ base + bank := by
  rw [effectiveSize] at enabled ⊢
  split at enabled
  case isTrue fits =>
    rw [if_pos fits, Nat.add_assoc]
    exact Nat.add_le_add_left fits base
  case isFalse => exact absurd rfl enabled

/-- A ring ends before those of higher sockets begin: their offset counts its request, which its size never
exceeds. -/
theorem ring_end_le_higher_base (base bank : Nat) (sel : Byte) (l n : SockId) (lower : l < n) :
    base + ringOffset sel l.val + effectiveSize bank sel l ≤ base + ringOffset sel n.val := by
  have size : effectiveSize bank sel l ≤ reqSize sel l.val := effectiveSize_le_reqSize bank sel l
  have counted : ringOffset sel l.val + reqSize sel l.val ≤ ringOffset sel n.val := ringOffset_mono sel lower
  omega

/-- Settles O4: in the model's own words bases and sizes are those of R181 and R182, and both banks place their rings
alike. -/
theorem ringsArePackedInsideTheirBanks : Obligations.RingsArePackedInsideTheirBanks := by
  intro s n m req off tx rx
  have requested : req = reqSize := funext fun sel => funext fun k => (reqSize_eq sel k).symm
  have offset (sel : Byte) : off sel = ringOffset sel n.val := by
    rw [ringOffset_eq_sum, ← requested]
  rw [requested, offset, offset]
  exact ⟨rfl, rfl, rfl, rfl,
    effectiveSize_mem m.bankSize tx n, effectiveSize_mem m.bankSize rx n,
    ring_end_le_bank_end m.txBankBase m.bankSize tx n, ring_end_le_bank_end m.rxBankBase m.bankSize rx n,
    fun l lower => ⟨fun _ => ring_end_le_higher_base m.txBankBase m.bankSize tx l n lower,
      fun _ => ring_end_le_higher_base m.rxBankBase m.bankSize rx l n lower⟩⟩

end Sys2Proof.Machine
end

section
/-! SUPPORT. 42_socket_commands.md R203 to R211, R214: what each socket command leaves. -/
namespace Sys2Proof.Machine

open Sys2Proof

/-! ## The dispatcher (R200) -/

/-- Over a clear command byte a rule that refuses nothing leaves its next state. -/
theorem dispatch_idle_next (closing : Bool) (n : SockId) (rule : State → State) (s : State) (alive : s.alive = true)
    (idle : (s.sock n).op = .none) : dispatch closing n (fun t => .next (rule t)) s = .next (rule s) :=
  dispatch_idle closing n _ s alive idle

/-- Writing back a socket's record changes nothing. -/
theorem State.setSock_sock (s : State) (n : SockId) : s.setSock n (s.sock n) = s := by
  simp [State.setSock, State.sock]

/-- Unless a close is in flight, DISCON and CLOSE run their rule with any operation abandoned. -/
theorem dispatch_closing (n : SockId) (rule : State → State) (s : State) (alive : s.alive = true)
    (noClose : ∀ h, (s.sock n).op ≠ .close h) :
    dispatch true n (fun t => .next (rule t)) s = .next (rule (s.setOp n .none)) := by
  cases busy : (s.sock n).op with
  | none =>
    have abandoned : s.setOp n .none = s := by
      rw [State.setOp, ← busy]
      exact s.setSock_sock n
    rw [abandoned, dispatch_idle_next true n rule s alive busy]
  | close h => exact absurd busy (noClose h)
  | udpBind | listen | connect _ | send => simp [dispatch, alive, busy]

/-! ## Shapes the command rules share -/

/-- A rule that acts under its guard and is ignored elsewhere; `p` is the guard in the statement's words. -/
theorem commandEffect_guarded {n : SockId} {cr : Byte} {k : Sock} {s t : State} {guard p : Prop} [Decidable guard]
    [Decidable p] (same : guard ↔ p) (acts : CommandEffect n cr k s t) :
    if p then CommandEffect n cr k s (if guard then t else s.ignoreCommand n)
    else CommandEffect n 0x00 (s.sock n) s (if guard then t else s.ignoreCommand n) := by
  split
  case isTrue holds =>
    rw [if_pos (same.mpr holds)]
    exact acts
  case isFalse fails =>
    rw [if_neg (mt same.mp fails)]
    exact commandEffect_ignore n s

theorem transfers_iff_mem (x : Status) : transfers x = true ↔ x ∈ [Status.established, .udp, .ipraw] := by
  cases x <;> decide

theorem keeps_iff_mem (x : Status) : keeps x = true ↔ x ∈ [Status.udp, .established] := by
  cases x <;> decide

/-- Seen from its address a command's effect is a commit's: one byte stored, one record replaced. -/
theorem CommandEffect.commitEffect {n : SockId} {cr : Byte} {k : Sock} {s t : State} (e : CommandEffect n cr k s t)
    (h : s.cfg.Tabled) : CommitEffect n (blockAddr n 0x01) cr k s t := by
  have address : sockAddr s.cfg.map n s.cfg.map.oCr = blockAddr n 0x01 := by
    rw [h.map]
    exact sockAddr_tabled n 0x01
  obtain ⟨record, otherRecords, command, bytes, rest⟩ := e
  rw [address] at command bytes
  exact ⟨record, otherRecords, command, bytes, rest⟩

/-! ## LISTEN and CONNECT (R203, R204) -/

theorem State.setOp_setStatus (s : State) (n : SockId) (x : Status) (o : CtlOp) :
    (s.setStatus n x).setOp n o = s.setSock n { s.sock n with status := x, op := o } := by
  simp [State.setOp, State.setStatus]

theorem commandEffect_listenRule (n : SockId) (s : State) :
    if (s.sock n).status = .init then
      CommandEffect n s.cfg.codes.cmdListen { s.sock n with status := .listen, op := .listen } s (listenRule n s)
    else CommandEffect n 0x00 (s.sock n) s (listenRule n s) := by
  rw [listenRule, State.setOp_setStatus]
  exact commandEffect_guarded Iff.rfl (commandEffect_of n _ _ s)

theorem commandEffect_connectRule (n : SockId) (s : State) :
    if (s.sock n).status = .init then
      CommandEffect n s.cfg.codes.cmdConnect { s.sock n with op := .connect s.connectTimeout } s (connectRule n s)
    else CommandEffect n 0x00 (s.sock n) s (connectRule n s) :=
  commandEffect_guarded Iff.rfl (commandEffect_of n _ _ s)

/-- Settles O19: over a clear command byte the rules of LISTEN and CONNECT run, and both are guarded by INIT. -/
theorem listenAndConnectStartFromInit : Obligations.ListenAndConnectStartFromInit := by
  intro n s alive idle
  exact ⟨⟨_, dispatch_idle_next false n _ s alive idle, commandEffect_listenRule n s⟩,
    ⟨_, dispatch_idle_next false n _ s alive idle, commandEffect_connectRule n s⟩⟩

/-! ## DISCON and CLOSE (R205, R206, R214) -/

/-- `had_conn` of R214. -/
theorem hadConn_eq_decide (k : Sock) :
    (k.conn.isSome && (k.status == .established || k.status == .closeWait)) =
      decide (k.conn ≠ none ∧ (k.status = .established ∨ k.status = .closeWait)) := by
  rw [Bool.eq_iff_iff]
  simp [Option.isSome_iff_ne_none]

/-- `StartClose(n, v)` after the operation in flight was abandoned, seen from the state before. -/
theorem commandEffect_startClose_abandoned (n : SockId) (v : Byte) (s : State) :
    let t := startClose n v (s.setOp n .none)
    if (s.sock n).status = .closed then CommandEffect n 0x00 { s.sock n with op := .none } s t
    else CommandEffect n v { s.sock n with
        recvEnabled := false
        status := if (s.sock n).status = .closeWait then .closeWait else .closing
        op := .close (decide ((s.sock n).conn ≠ none
          ∧ ((s.sock n).status = .established ∨ (s.sock n).status = .closeWait))) } s t := by
  have abandoned : (s.setOp n .none).sock n = { s.sock n with op := .none } := by simp
  simp only [startClose, abandoned, hadConn_eq_decide]
  split
  case isTrue => exact commandEffect_of n 0x00 _ s
  case isFalse =>
    rw [State.setOp, State.setSock_setSock]
    exact commandEffect_of n v _ s

/-- Settles O20: DISCON and CLOSE are one rule with two codes, run with the operation in flight abandoned. -/
theorem closeCommandsStartAClose : Obligations.CloseCommandsStartAClose := by
  intro n s alive noClose
  simp only [List.forall_mem_cons, List.not_mem_nil, false_implies, implies_true, and_true]
  exact ⟨⟨_, dispatch_closing n _ s alive noClose, commandEffect_startClose_abandoned n _ s⟩,
    ⟨_, dispatch_closing n _ s alive noClose, commandEffect_startClose_abandoned n _ s⟩⟩

/-! ## SEND (R207) -/

/-- Settles O21: the status guard comes before the refusal of hazard H3. -/
theorem sendStartsOrIsRefused : Obligations.SendStartsOrIsRefused := by
  intro n s alive idle
  have run : exec (.scmdSend n) s = sendRule n s := dispatch_idle false n _ s alive idle
  rw [run, sendRule]
  split
  case isTrue ignored => exact ⟨_, if_neg (mt (transfers_iff_mem _).mp ignored), commandEffect_ignore n s⟩
  case isFalse transfer =>
    rw [if_pos ((transfers_iff_mem _).mpr (not_not.mp transfer))]
    split
    case isTrue overrun => exact if_pos overrun
    case isFalse fits => exact ⟨_, if_neg fits, commandEffect_of n _ _ s⟩

/-! ## SEND_MAC (R208) -/

theorem State.raiseInt_releaseTx (s : State) (n : SockId) (b : Byte) :
    (s.releaseTx n).raiseInt n b =
      s.setSock n { s.sock n with txRd := (s.sock n).txWr, ir := (s.sock n).ir ||| b } := by
  simp [State.raiseInt, State.releaseTx, raisedBits]

theorem commandEffect_sendMacRule (n : SockId) (s : State) :
    if (s.sock n).status ∈ [Status.udp, .established] then
      CommandEffect n 0x00 { s.sock n with
        txRd := (s.sock n).txWr, ir := (s.sock n).ir ||| s.cfg.codes.intSendOk } s (sendMacRule n s)
    else CommandEffect n 0x00 (s.sock n) s (sendMacRule n s) := by
  rw [sendMacRule, State.raiseInt_releaseTx]
  exact commandEffect_guarded (keeps_iff_mem _) (commandEffect_of n _ _ s)

/-- A command that leaves the TX cursors equal leaves the whole ring free. -/
theorem CommandEffect.txFsr_released {n : SockId} {cr : Byte} {k : Sock} {s t : State} (e : CommandEffect n cr k s t)
    (h : s.cfg.Tabled) (released : k.txRd = k.txWr) : (t.peek16 (blockAddr n 0x20)).toNat = s.txSize n := by
  rw [(e.commitEffect h).peek16_txFsr_eq h, released, BitVec.sub_self]
  rfl

/-- Settles O22: where SEND_MAC acts its record has equal TX cursors, so `TX_FSR` shows the ring's size. -/
theorem sendMacReleasesAndRaises : Obligations.SendMacReleasesAndRaises := by
  intro n s alive idle
  have effect := commandEffect_sendMacRule n s
  refine ⟨_, dispatch_idle_next false n _ s alive idle, ?_⟩
  split at effect
  case isTrue acts =>
    rw [if_pos acts]
    exact ⟨effect, fun h => effect.txFsr_released h rfl⟩
  case isFalse ignored =>
    rw [if_neg ignored]
    exact effect

/-! ## SEND_KEEP (R209) -/

/-- With a handle a keep-alive ends as an ignored command does: it clears the command byte. -/
theorem sendKeepRule_eq (n : SockId) (s : State) :
    sendKeepRule n s =
      if keeps (s.sock n).status = true ∧ (s.sock n).conn = none then
        (s.raiseInt n s.cfg.codes.intTimeout).setCr n 0x00
      else s.ignoreCommand n := by
  rw [ite_and]
  rfl

/-- Settles O23: the status and the missing handle are one guard. -/
theorem sendKeepTimesOutWithoutHandle : Obligations.SendKeepTimesOutWithoutHandle := by
  intro n s alive idle
  refine ⟨_, dispatch_idle_next false n _ s alive idle, ?_⟩
  rw [sendKeepRule_eq]
  exact commandEffect_guarded (and_congr_left' (keeps_iff_mem _)) (commandEffect_of n _ _ s)

/-! ## RECV (R210) -/

/-- Settles O24: RECV changes the one field `recvEnabled`, under its status guard. -/
theorem recvArmsReceive : Obligations.RecvArmsReceive := by
  intro n s alive idle
  exact ⟨_, dispatch_idle_next false n _ s alive idle,
    commandEffect_guarded (transfers_iff_mem _) (commandEffect_of n _ _ s)⟩

/-! ## NONE and the unrecognised codes (R200, R211) -/

/-- Settles O25: NONE does not reach the dispatcher; an unrecognised code is dispatched to an ignored command. -/
theorem unrecognisedCommandsAreCleared : Obligations.UnrecognisedCommandsAreCleared := by
  intro n c s alive
  exact ⟨if_pos alive, fun idle =>
    ⟨_, dispatch_idle_next false n (State.ignoreCommand · n) s alive idle, commandEffect_ignore n s⟩⟩

end Sys2Proof.Machine
end

section
/-! SUPPORT. 43_engines.md R240, R247: what the completion of a close leaves. -/
namespace Sys2Proof.Machine

open Sys2Proof

/-! ## The shape of a completion (R240) -/

/-- The state with the requests `reqs` made. -/
def State.askAll (s : State) (reqs : List NetReq) : State := { s with netLog := s.netLog ++ reqs }

@[simp] theorem State.askAll_cfg (s : State) (reqs : List NetReq) : (s.askAll reqs).cfg = s.cfg := rfl

@[simp] theorem State.askAll_sock (s : State) (reqs : List NetReq) (m : SockId) :
    (s.askAll reqs).sock m = s.sock m := rfl

@[simp] theorem State.askAll_load (s : State) (reqs : List NetReq) (a : Nat) :
    (s.askAll reqs).load a = s.load a := rfl

/-- A completion that makes its requests, replaces its socket's record and clears its command byte. -/
theorem engineEffect_of (n : SockId) (k : Sock) (reqs : List NetReq) (s : State) :
    EngineEffect n k reqs 0 0 0 s (((s.askAll reqs).setSock n k).setCr n 0x00) where
  record := by simp
  otherRecords m other := by simp [other]
  command := by simp
  bytes a other := by simp [other]
  rest := rfl

/-- `raise_int` under a condition changes the one interrupt register. -/
theorem State.ite_raiseInt (s : State) (n : SockId) (b : Byte) (c : Bool) :
    (if c = true then s.raiseInt n b else s) =
      s.setSock n { s.sock n with ir := if c = true then (s.sock n).ir ||| b else (s.sock n).ir } := by
  cases c with
  | true => rfl
  | false => exact (s.setSock_sock n).symm

/-! ## Releasing a port (10_state.md R64) -/

theorem mem_portErase (l : List Half) (p q : Half) : q ∈ portErase l p ↔ q ∈ l ∧ q ≠ p := by
  simp [portErase]

theorem mem_portInsert (l : List Half) (p q : Half) : q ∈ portInsert l p ↔ q ∈ l ∨ q = p := by
  rw [portInsert]
  split
  case isTrue present =>
    have member : p ∈ l := List.contains_iff_mem.mp present
    exact (or_iff_left_of_imp fun same => same ▸ member).symm
  case isFalse => simp

/-- A reserved port moves from one set to the other. -/
theorem State.releasePort_reserved (s : State) (p : Half) (reserved : p ∈ s.prov) :
    s.releasePort p = { s with prov := portErase s.prov p, released := portInsert s.released p } :=
  if_pos (List.contains_iff_mem.mpr reserved)

theorem State.releasePort_unreserved (s : State) (p : Half) (unreserved : p ∉ s.prov) : s.releasePort p = s :=
  if_neg (mt List.contains_iff_mem.mp unreserved)

theorem State.mem_prov_releasePort (s : State) (p q : Half) :
    q ∈ (s.releasePort p).prov ↔ q ∈ s.prov ∧ q ≠ p := by
  by_cases reserved : p ∈ s.prov
  · rw [s.releasePort_reserved p reserved]
    exact mem_portErase s.prov p q
  · rw [s.releasePort_unreserved p reserved]
    exact (and_iff_left_of_imp fun member => ne_of_mem_of_not_mem member reserved).symm

theorem State.mem_released_releasePort (s : State) (p q : Half) :
    q ∈ (s.releasePort p).released ↔ q ∈ s.released ∨ (q = p ∧ p ∈ s.prov) := by
  by_cases reserved : p ∈ s.prov
  · simp only [s.releasePort_reserved p reserved, mem_portInsert, reserved, and_true]
  · simp only [s.releasePort_unreserved p reserved, reserved, and_false, or_false]

/-- A release changes the two port sets only. -/
theorem State.releasePort_eq (s : State) (p : Half) :
    s.releasePort p = { s with prov := (s.releasePort p).prov, released := (s.releasePort p).released } := by
  by_cases reserved : p ∈ s.prov
  · rw [s.releasePort_reserved p reserved]
  · rw [s.releasePort_unreserved p reserved]

/-- A release looks at no socket's record. -/
theorem State.releasePort_setSock (s : State) (n : SockId) (k : Sock) (p : Half) :
    (s.setSock n k).releasePort p = (s.releasePort p).setSock n k := by
  by_cases reserved : p ∈ s.prov
  · rw [s.releasePort_reserved p reserved]
    exact (s.setSock n k).releasePort_reserved p reserved
  · rw [s.releasePort_unreserved p reserved]
    exact (s.setSock n k).releasePort_unreserved p reserved

/-! ## Close (R247) -/

/-- The requests for the close of the handles a socket holds, the connection's first. -/
def Sock.closeRequests (k : Sock) : List NetReq := (k.conn.toList ++ k.lsn.toList).map NetReq.close

/-- The record a completed close leaves. -/
def Sock.closed (k : Sock) (intDiscon : Byte) (had : Bool) : Sock :=
  { k with
    conn := none, lsn := none, status := .closed
    ir := if had = true then k.ir ||| intDiscon else k.ir
    op := .none }

/-- `State.closeHandles_eq` with the record written last. -/
theorem State.closeHandles_eq_setSock (s : State) (n : SockId) :
    s.closeHandles n =
      (s.askAll (s.sock n).closeRequests).setSock n { s.sock n with conn := none, lsn := none } :=
  s.closeHandles_eq n

/-- The writes of R247 to one record amount to one write, after the requests and the release. -/
theorem closeDone_eq (n : SockId) (had : Bool) (s : State) :
    closeDone n had s =
      (((s.askAll (s.sock n).closeRequests).releasePort (s.sPort n)).setSock n
        ((s.sock n).closed s.cfg.codes.intDiscon had)).setCr n 0x00 := by
  rw [closeDone, State.ite_raiseInt, State.closeHandles_eq_setSock, State.releasePort_setSock]
  simp only [State.finishOp, State.setOp, State.setStatus, State.setSock_setSock, State.sock_setSock_same, Sock.closed]

/-- The completion of a close, seen from the state in which the port is already released. -/
theorem engineEffect_closeDone (n : SockId) (had : Bool) (s : State) :
    let t := closeDone n had s
    EngineEffect n ((s.sock n).closed s.cfg.codes.intDiscon had) (s.sock n).closeRequests 0 0 0
      { s with prov := t.prov, released := t.released } t := by
  rw [closeDone_eq, State.releasePort_eq]
  exact engineEffect_of n _ _ _

theorem exec_ctlCloseDone_close (n : SockId) (had : Bool) (s : State) (alive : s.alive = true)
    (closing : (s.sock n).op = .close had) : exec (.ctlCloseDone n) s = .next (closeDone n had s) := by
  show execCtlCloseDone n s = _
  rw [execCtlCloseDone, closing]
  exact congrArg Host.Outcome.next (if_pos alive)

/-- Settles O32: the two port sets are those of the release, and everything else is one completion's effect. -/
theorem closeCompletes : Obligations.CloseCompletes := by
  intro n had s alive closing
  refine ⟨_, exec_ctlCloseDone_close n had s alive closing, fun p => ?_, fun p => ?_, engineEffect_closeDone n had s⟩
  · rw [closeDone_eq]
    exact State.mem_prov_releasePort _ _ p
  · rw [closeDone_eq]
    exact State.mem_released_releasePort _ _ p

end Sys2Proof.Machine
end

section
/-! SUPPORT. 45_dhcp_responder.md R301 to R310: the exchange slot, from the DISCOVER that takes it to the delivery or the
expiry that frees it. -/
namespace Sys2Proof.Machine

open Sys2Proof

/-! ## What is ignored (R303, R308; 46_icmp_echo.md R343) -/

/-- Settles O42: the three inputs have one meaning, the state itself. -/
theorem otherPayloadsAreIgnored : Obligations.OtherPayloadsAreIgnored :=
  fun _ _ => ⟨fun _ => rfl, fun _ => rfl, fun _ _ => rfl⟩

/-! ## The tests of the responder in the rules' words -/

/-- `expired(now)` of R304. -/
theorem DhcpExchange.expired_iff (x : DhcpExchange) (now : Nat) :
    x.expired now = true ↔ x.state = .awaitingRequest ∧ x.deadline < now := by
  simp [DhcpExchange.expired]

/-- R304: the slot is free if no exchange holds it that has not expired. -/
theorem slotFree_iff (d : Option DhcpExchange) (now : Nat) :
    slotFree d now = true ↔ ∀ x, d = some x → x.state = .awaitingRequest ∧ x.deadline < now := by
  cases d with
  | none => simp [slotFree]
  | some x => simp [slotFree, x.expired_iff]

/-- `is_broadcast(ip)` of R304, octet by octet. -/
theorem State.isBroadcast_iff (s : State) (ip : Quad) :
    s.isBroadcast ip = true ↔ ip = ⟨0xFF, 0xFF, 0xFF, 0xFF⟩
      ∨ ((ip.a ||| s.cSubr.a = 0xFF ∧ ip.b ||| s.cSubr.b = 0xFF ∧ ip.c ||| s.cSubr.c = 0xFF
          ∧ ip.d ||| s.cSubr.d = 0xFF) ∧ s.cSubr ≠ ⟨0, 0, 0, 0⟩) := by
  simp [State.isBroadcast, quadOr, quadOnes, quadZero]

/-- "server-identifier-or-source-IP" of R306. -/
theorem serverMatches_iff (f : DhcpFrame) (x : DhcpExchange) :
    serverMatches f x = true ↔
      f.serverId = some x.serverIp ∨ (f.serverId = none ∧ f.ciaddr = x.clientIp) := by
  rw [serverMatches]
  cases f.serverId with
  | none => simp
  | some q => simp

/-- Every test of R306. -/
theorem requestMatches_iff (f : DhcpFrame) (x : DhcpExchange) (now : Nat) :
    requestMatches f x now = true ↔
      x.state = .awaitingRequest ∧ now ≤ x.deadline ∧ f.xid = x.xid ∧ f.chaddr = x.chaddr
        ∧ (f.serverId = some x.serverIp ∨ (f.serverId = none ∧ f.ciaddr = x.clientIp)) := by
  simp only [requestMatches, Bool.and_eq_true, beq_iff_eq, decide_eq_true_eq, serverMatches_iff, and_assoc]

/-- The guard of a delivery (R310). -/
theorem mayDeliver_iff (n : SockId) (x : DhcpExchange) (s : State) :
    mayDeliver n x s = true ↔
      x.deliverable = true ∧ ¬ (x.state = .awaitingRequest ∧ x.deadline < s.now) ∧ x.sock = n
        ∧ (s.sock n).recvEnabled = true ∧ (s.sock n).status = .udp ∧ 8 + s.cfg.dhcpFrameLen ≤ s.rxFree n := by
  have unexpired : (!x.expired s.now) = true ↔ ¬ (x.state = .awaitingRequest ∧ x.deadline < s.now) := by
    rw [← x.expired_iff, Bool.not_eq_true', Bool.not_eq_true]
  simp only [mayDeliver, Bool.and_eq_true, unexpired, beq_iff_eq, decide_eq_true_eq, and_assoc]
  rfl

/-! ## The four steps of a live block -/

theorem exec_dhcpDiscover_alive (n : SockId) (f : DhcpFrame) (s : State) (alive : s.alive = true) :
    exec (.dhcpDiscover n f) s = .next (discoverRule n f s) :=
  congrArg Host.Outcome.next (if_pos alive)

theorem exec_dhcpRequest_alive (n : SockId) (f : DhcpFrame) (s : State) (alive : s.alive = true) :
    exec (.dhcpRequest n f) s = .next (requestRule n f s) :=
  congrArg Host.Outcome.next (if_pos alive)

theorem exec_dhcpExpire_alive (s : State) (alive : s.alive = true) : exec .dhcpExpire s = .next (expireRule s) :=
  congrArg Host.Outcome.next (if_pos alive)

theorem exec_rxDhcpDeliver_alive (n : SockId) (s : State) (alive : s.alive = true) :
    exec (.rxDhcpDeliver n) s = .next (deliverRule n s) :=
  congrArg Host.Outcome.next (if_pos alive)

/-! ## DISCOVER (R304) -/

/-- The exchange a DISCOVER starts. -/
def State.offered (s : State) (n : SockId) (f : DhcpFrame) : DhcpExchange where
  state := .awaitingRequest
  clientIp := s.seed.ip
  serverIp := s.cfg.dhcpServerIp
  xid := f.xid
  chaddr := f.chaddr
  buf := buildOffer f s.seed s.cfg
  deliverable := true
  deadline := s.now + 1000
  sock := n

theorem discoverRule_takes (n : SockId) (f : DhcpFrame) (s : State) (broadcast : s.isBroadcast (s.sDipr n) = true)
    (free : slotFree s.dhcp s.now = true) : discoverRule n f s = { s with dhcp := some (s.offered n f) } :=
  if_pos (Bool.and_eq_true_iff.mpr ⟨broadcast, free⟩)

theorem discoverRule_ignores (n : SockId) (f : DhcpFrame) (s : State)
    (refused : ¬ (s.isBroadcast (s.sDipr n) = true ∧ slotFree s.dhcp s.now = true)) : discoverRule n f s = s :=
  if_neg (mt Bool.and_eq_true_iff.mp refused)

/-- Settles O39: the two tests of the rule are the statement's two. -/
theorem discoverCreatesTheExchange : Obligations.DiscoverCreatesTheExchange := by
  intro n f s alive
  rw [exec_dhcpDiscover_alive n f s alive]
  have broadcast := s.isBroadcast_iff (s.sDipr n)
  have free := slotFree_iff s.dhcp s.now
  refine ⟨fun ⟨isBroadcast, isFree⟩ => ?_, fun refused => ?_⟩
  · rw [discoverRule_takes n f s (broadcast.mpr isBroadcast) (free.mpr isFree)]
    rfl
  · rw [discoverRule_ignores n f s (mt (And.imp broadcast.mp free.mp) refused)]

/-! ## REQUEST (R306, R307) -/

theorem requestRule_noExchange (n : SockId) (f : DhcpFrame) (s : State) (empty : s.dhcp = none) :
    requestRule n f s = s := by
  rw [requestRule, empty]

theorem requestRule_exchange (n : SockId) (f : DhcpFrame) (s : State) (x : DhcpExchange) (held : s.dhcp = some x) :
    requestRule n f s =
      if requestMatches f x s.now = true then
        { s with dhcp := some { x with
            buf := ackBuffer x.buf, deliverable := true, state := .done, sock := n } }
      else s := by
  rw [requestRule, held]

/-- R307: byte 242, the value of the message type option, becomes that of an ACK. -/
theorem ackBuffer_type (buf : List Byte) (h : 242 < (ackBuffer buf).length) : (ackBuffer buf)[242] = 0x05 :=
  List.getElem_set_self h

/-- R307: the ACK is otherwise the OFFER. -/
theorem ackBuffer_elsewhere (buf : List Byte) (i : Nat) (other : i ≠ 242) : (ackBuffer buf)[i]? = buf[i]? :=
  List.getElem?_set_ne other.symm

/-- Settles O41: the test of the rule is the statement's, and the rule sets one byte of the buffer. -/
theorem requestTurnsOfferIntoAck : Obligations.RequestTurnsOfferIntoAck := by
  intro n f s alive
  rw [exec_dhcpRequest_alive n f s alive]
  refine ⟨fun empty => by rw [requestRule_noExchange n f s empty], fun x held => ?_⟩
  rw [requestRule_exchange n f s x held]
  have tests := requestMatches_iff f x s.now
  refine ⟨fun ok => ⟨ackBuffer x.buf, ?_, List.length_set, ackBuffer_type x.buf, ackBuffer_elsewhere x.buf⟩,
    fun fails => ?_⟩
  · rw [if_pos (tests.mpr ok)]
  · rw [if_neg (mt tests.mp fails)]

/-! ## Expiry (R309) -/

theorem expireRule_expired (s : State) (x : DhcpExchange) (held : s.dhcp = some x) (expired : x.expired s.now = true) :
    expireRule s = { s with dhcp := none } := by
  rw [expireRule, held]
  exact if_pos expired

theorem expireRule_unexpired (s : State) (h : ∀ x, s.dhcp = some x → ¬ x.expired s.now = true) :
    expireRule s = s := by
  rw [expireRule]
  split
  case h_1 x held => exact if_neg (h x held)
  case h_2 => rfl

/-- Settles O43: the guard of the rule is `expired(now)`. -/
theorem expiryFreesTheSlot : Obligations.ExpiryFreesTheSlot := by
  intro s alive
  rw [exec_dhcpExpire_alive s alive]
  refine ⟨fun ⟨x, held, expired⟩ => ?_, fun unexpired => ?_⟩
  · rw [expireRule_expired s x held ((x.expired_iff _).mpr expired)]
  · rw [expireRule_unexpired s fun x held expired => unexpired ⟨x, held, (x.expired_iff _).mp expired⟩]

/-! ## Delivery (R310) -/

/-- The exchange that remains of a delivered one. -/
def DhcpExchange.delivered (x : DhcpExchange) : Option DhcpExchange :=
  if x.state = .done then none else some { x with deliverable := false }

/-- A receive neither reads nor writes the exchange. -/
theorem State.dhcp_rxCommit_comm (s : State) (n : SockId) (bytes : List Byte) (d : Option DhcpExchange) :
    { s.rxCommit n bytes with dhcp := d } = State.rxCommit { s with dhcp := d } n bytes := rfl

theorem deliverRule_delivers (n : SockId) (x : DhcpExchange) (s : State) (held : s.dhcp = some x)
    (may : mayDeliver n x s = true) :
    deliverRule n s = State.rxCommit { s with dhcp := x.delivered } n (deliveryHeader s.cfg x ++ x.buf) := by
  rw [← State.dhcp_rxCommit_comm, deliverRule, held]
  exact if_pos may

theorem deliverRule_withholds (n : SockId) (s : State) (h : ∀ x, s.dhcp = some x → ¬ mayDeliver n x s = true) :
    deliverRule n s = s := by
  rw [deliverRule]
  split
  case h_1 => rfl
  case h_2 x held => exact if_neg (h x held)

/-- Settles O38: a delivery is a receive of header and frame by the state that already holds what remains of the
exchange. -/
theorem dhcpDeliveryCommits : Obligations.DhcpDeliveryCommits := by
  intro n x s alive held deliverable unexpired owner armed udp full room
  have may : mayDeliver n x s = true := (mayDeliver_iff n x s).mpr ⟨deliverable, unexpired, owner, armed, udp, room⟩
  have fits : (deliveryHeader s.cfg x ++ x.buf).length ≤ s.rxSize n := by
    have length : (deliveryHeader s.cfg x ++ x.buf).length = 8 + s.cfg.dhcpFrameLen := by
      rw [List.length_append, full]
      rfl
    omega
  refine ⟨_, exec_rxDhcpDeliver_alive n s alive, ?_⟩
  rw [deliverRule_delivers n x s held may]
  exact rxEffect_rxCommit n _ { s with dhcp := x.delivered } fits

end Sys2Proof.Machine
end

section
/-! SUPPORT. 45_dhcp_responder.md R302, R305, 30_encoding.md R124: the OFFER in three parts, and the scan of its options. -/
namespace Sys2Proof.Machine

open Sys2Proof

/-! ## The option scan (R124) -/

/-- The scan stops at the option it looks for. -/
theorem scanOption_found (want len : Byte) (fuel : Nat) (value rest : List Byte) (sized : value.length = len.toNat)
    (notPad : want ≠ 0x00) (notEnd : want ≠ 0xFF) :
    scanOption want (fuel + 1) (want :: len :: (value ++ rest)) = some value := by
  have enough : ¬ (value ++ rest).length < len.toNat := by
    rw [List.length_append]
    omega
  rw [scanOption, if_neg notPad, if_neg notEnd]
  simp only [if_neg enough, if_true, List.take_left' sized]

/-- The scan steps over any other option. -/
theorem scanOption_skip (want c len : Byte) (fuel : Nat) (value rest : List Byte) (sized : value.length = len.toNat)
    (notPad : c ≠ 0x00) (notEnd : c ≠ 0xFF) (other : c ≠ want) :
    scanOption want (fuel + 1) (c :: len :: (value ++ rest)) = scanOption want fuel rest := by
  have enough : ¬ (value ++ rest).length < len.toNat := by
    rw [List.length_append]
    omega
  rw [scanOption, if_neg notPad, if_neg notEnd]
  simp only [if_neg enough, if_neg other, List.drop_left' sized]

/-! ## The parts of an OFFER (R305) -/

/-- Bytes 0 to 27: what precedes the hardware address. -/
def offerStart (f : DhcpFrame) (seed : Seed) (cfg : Config.Params) : List Byte :=
  [0x02, f.htype, f.hlen, 0x00] ++ quadBytes f.xid ++ [0x00, 0x00] ++ halfBytes f.flags
    ++ List.replicate 4 0x00 ++ quadBytes seed.ip ++ quadBytes cfg.dhcpServerIp ++ List.replicate 4 0x00

/-- Bytes 249 to 272: the options after the server identifier. -/
def leaseOptions (seed : Seed) (cfg : Config.Params) : List Byte :=
  [0x33, 0x04] ++ wordBytes cfg.dhcpLeaseS ++ [0x01, 0x04] ++ quadBytes seed.subnet
    ++ [0x03, 0x04] ++ quadBytes seed.gateway ++ [0x06, 0x04] ++ quadBytes seed.dns

/-- Bytes 240 on: the options, the end option, the padding. -/
def offerOptions (seed : Seed) (cfg : Config.Params) : List Byte :=
  0x35 :: 0x01 :: ([Config.dhcpOffer] ++ 0x36 :: 0x04 :: (quadBytes cfg.dhcpServerIp
    ++ (leaseOptions seed cfg ++ 0xFF :: List.replicate (cfg.dhcpFrameLen - 274) 0x00)))

theorem length_offerFields (f : DhcpFrame) (seed : Seed) (cfg : Config.Params) (chaddr : f.chaddr.length = 16) :
    (offerFields f seed cfg).length = 274 := by
  unfold offerFields
  simp only [List.length_append, List.length_replicate, chaddr]
  rfl

section
variable (f : DhcpFrame) (seed : Seed) (cfg : Config.Params) (chaddr : f.chaddr.length = 16)
  (holds : 274 ≤ cfg.dhcpFrameLen)
include chaddr holds

/-- A frame length that holds the options cuts nothing off. -/
theorem buildOffer_eq :
    buildOffer f seed cfg =
      offerStart f seed cfg ++ (f.chaddr ++ (List.replicate 192 0x00 ++ (Config.dhcpCookie
        ++ offerOptions seed cfg))) := by
  have length : (offerFields f seed cfg ++ List.replicate (cfg.dhcpFrameLen - 274) 0x00).length
      ≤ cfg.dhcpFrameLen := by
    rw [List.length_append, length_offerFields f seed cfg chaddr, List.length_replicate]
    omega
  refine (List.take_of_length_le length).trans ?_
  unfold offerFields offerStart offerOptions leaseOptions
  simp only [List.append_assoc, List.cons_append, List.nil_append]

theorem length_buildOffer : (buildOffer f seed cfg).length = cfg.dhcpFrameLen := by
  rw [buildOffer, List.length_take, List.length_append, length_offerFields f seed cfg chaddr, List.length_replicate]
  omega

theorem drop_buildOffer_chaddr :
    (buildOffer f seed cfg).drop 28 =
      f.chaddr ++ (List.replicate 192 0x00 ++ (Config.dhcpCookie ++ offerOptions seed cfg)) := by
  rw [buildOffer_eq f seed cfg chaddr holds]
  rfl

theorem drop_buildOffer_zeros :
    (buildOffer f seed cfg).drop 44 = List.replicate 192 0x00 ++ (Config.dhcpCookie ++ offerOptions seed cfg) := by
  rw [show 44 = 28 + 16 from rfl, ← List.drop_drop, drop_buildOffer_chaddr f seed cfg chaddr holds]
  exact List.drop_left' chaddr

theorem drop_buildOffer_cookie :
    (buildOffer f seed cfg).drop 236 = Config.dhcpCookie ++ offerOptions seed cfg := by
  rw [show 236 = 44 + 192 from rfl, ← List.drop_drop, drop_buildOffer_zeros f seed cfg chaddr holds]
  exact List.drop_left' List.length_replicate

theorem drop_buildOffer_options (i : Nat) :
    (buildOffer f seed cfg).drop (240 + i) = (offerOptions seed cfg).drop i := by
  rw [show 240 + i = 236 + (4 + i) by omega, ← List.drop_drop, drop_buildOffer_cookie f seed cfg chaddr holds,
    ← List.drop_drop]
  rfl

/-- A field ahead of the hardware address. -/
theorem take_drop_buildOffer_start (i k : Nat) (ahead : i + k ≤ 28) :
    ((buildOffer f seed cfg).drop i).take k = ((offerStart f seed cfg).drop i).take k := by
  have length : (offerStart f seed cfg).length = 28 := rfl
  have inside : k ≤ ((offerStart f seed cfg).drop i).length := by
    rw [List.length_drop]
    omega
  rw [buildOffer_eq f seed cfg chaddr holds, List.drop_append_of_le_length (by omega),
    List.take_append_of_le_length inside]

/-- A field among the options. -/
theorem take_drop_buildOffer_options (i k : Nat) :
    ((buildOffer f seed cfg).drop (240 + i)).take k = ((offerOptions seed cfg).drop i).take k := by
  rw [drop_buildOffer_options f seed cfg chaddr holds i]

theorem buildOffer_chaddr : ((buildOffer f seed cfg).drop 28).take 16 = f.chaddr := by
  rw [drop_buildOffer_chaddr f seed cfg chaddr holds]
  exact List.take_left' chaddr

theorem buildOffer_zeros : ((buildOffer f seed cfg).drop 44).take 192 = List.replicate 192 0x00 := by
  rw [drop_buildOffer_zeros f seed cfg chaddr holds]
  exact List.take_left' List.length_replicate

theorem buildOffer_cookie : ((buildOffer f seed cfg).drop 236).take 4 = Config.dhcpCookie := by
  rw [drop_buildOffer_cookie f seed cfg chaddr holds]
  rfl

/-! ## What a parse of the OFFER finds (R302) -/

/-- The message type is the first option. -/
theorem dhcpOption_buildOffer_type : dhcpOption (buildOffer f seed cfg) 0x35 = some [Config.dhcpOffer] := by
  obtain ⟨fuel, length⟩ := Nat.exists_eq_add_of_le' holds
  rw [dhcpOption, length_buildOffer f seed cfg chaddr holds, length]
  exact (congrArg _ (drop_buildOffer_options f seed cfg chaddr holds 0)).trans
    (scanOption_found 0x35 0x01 (fuel + 273) _ _ rfl (by decide) (by decide))

/-- The server identifier is the second. -/
theorem dhcpOption_buildOffer_server :
    dhcpOption (buildOffer f seed cfg) 0x36 = some (quadBytes cfg.dhcpServerIp) := by
  obtain ⟨fuel, length⟩ := Nat.exists_eq_add_of_le' holds
  rw [dhcpOption, length_buildOffer f seed cfg chaddr holds, length]
  calc scanOption 0x36 (fuel + 274) ((buildOffer f seed cfg).drop 240)
      = scanOption 0x36 (fuel + 274) (offerOptions seed cfg) :=
        congrArg _ (drop_buildOffer_options f seed cfg chaddr holds 0)
    _ = scanOption 0x36 (fuel + 273) ((offerOptions seed cfg).drop 3) :=
        scanOption_skip 0x36 0x35 0x01 (fuel + 273) _ _ rfl (by decide) (by decide) (by decide)
    _ = some (quadBytes cfg.dhcpServerIp) :=
        scanOption_found 0x36 0x04 (fuel + 272) _ _ rfl (by decide) (by decide)

/-- The fixed fields ahead of the hardware address, as a parse reads them. -/
theorem parsed_buildOffer_start :
    (buildOffer f seed cfg).getD 1 0 = f.htype ∧ (buildOffer f seed cfg).getD 2 0 = f.hlen
      ∧ quadAt (buildOffer f seed cfg) 4 = f.xid
      ∧ half ((buildOffer f seed cfg).getD 10 0) ((buildOffer f seed cfg).getD 11 0) = f.flags
      ∧ quadAt (buildOffer f seed cfg) 12 = ⟨0, 0, 0, 0⟩ := by
  rw [buildOffer_eq f seed cfg chaddr holds]
  exact ⟨rfl, rfl, rfl, half_hi_lo f.flags, rfl⟩

theorem parseDhcp_buildOffer :
    parseDhcp (buildOffer f seed cfg) =
      some { f with ciaddr := ⟨0, 0, 0, 0⟩, msgtype := 0x02, serverId := some cfg.dhcpServerIp } := by
  have long : ¬ (buildOffer f seed cfg).length < Config.dhcpMinLen := by
    rw [length_buildOffer f seed cfg chaddr holds, Config.dhcpMinLen]
    omega
  have cookie := buildOffer_cookie f seed cfg chaddr holds
  obtain ⟨htype, hlen, xid, flags, ciaddr⟩ := parsed_buildOffer_start f seed cfg chaddr holds
  rw [parseDhcp, if_neg long, if_neg (not_not.mpr cookie), dhcpOption_buildOffer_type f seed cfg chaddr holds,
    dhcpOption_buildOffer_server f seed cfg chaddr holds, htype, hlen, xid, flags, ciaddr,
    buildOffer_chaddr f seed cfg chaddr holds]
  rfl

end

/-- Settles O40: each field is read off the part of the frame it lies in, and the parse off the same parts. -/
theorem offerFrameIsAsTabled : Obligations.OfferFrameIsAsTabled := by
  intro f seed cfg chaddr holds b q
  have start := take_drop_buildOffer_start f seed cfg chaddr holds
  have option := take_drop_buildOffer_options f seed cfg chaddr holds
  exact ⟨length_buildOffer f seed cfg chaddr holds, start 0 4 (by omega), start 4 4 (by omega), start 8 2 (by omega),
    start 10 2 (by omega), start 12 4 (by omega), start 16 4 (by omega), start 20 4 (by omega), start 24 4 (by omega),
    buildOffer_chaddr f seed cfg chaddr holds, buildOffer_zeros f seed cfg chaddr holds,
    buildOffer_cookie f seed cfg chaddr holds, option 0 3, option 3 6, option 9 6, option 15 6, option 21 6,
    option 27 6, drop_buildOffer_options f seed cfg chaddr holds 33, parseDhcp_buildOffer f seed cfg chaddr holds⟩

end Sys2Proof.Machine
end

section
/-! SUPPORT. 43_engines.md R240, R241: an engine step presented without its guard. -/
namespace Sys2Proof.Machine

open Sys2Proof

/-! ## Completions (R243 to R247) -/

/-- A step that answers the state as it was, where the block is alive or not. -/
theorem next_ite_inert {s t : State} (c : Bool) (inert : t = s) :
    (.next (if c = true then t else s) : Result) = .next s := by
  rw [inert, ite_self]

/-- A completion whose guard names an operation that is not in flight. -/
theorem next_ite_other {s t : State} {o p : CtlOp} (c : Bool) (other : o ≠ p) :
    (.next (if (c && o == p) = true then t else s) : Result) = .next s := by
  rw [beq_false_of_ne other, Bool.and_false]
  rfl

theorem exec_ctlUdpbindDone_other (n : SockId) (r : BindAnswer) (s : State) (other : (s.sock n).op ≠ .udpBind) :
    exec (.ctlUdpbindDone n r) s = .next s :=
  next_ite_other s.alive other

theorem exec_ctlListenDone_other (n : SockId) (r : AcceptAnswer) (d : ListenDraw) (s : State)
    (other : (s.sock n).op ≠ .listen) : exec (.ctlListenDone n r d) s = .next s :=
  next_ite_other s.alive other

theorem exec_ctlConnectDone_other (n : SockId) (r : ConnectAnswer) (s : State)
    (other : ∀ ms, (s.sock n).op ≠ .connect ms) : exec (.ctlConnectDone n r) s = .next s := by
  show execCtlConnectDone n r s = _
  rw [execCtlConnectDone]
  split
  case h_1 ms connecting => exact absurd connecting (other ms)
  case h_2 => rfl

theorem exec_ctlSendDone_other (n : SockId) (ok keep : Bool) (s : State) (other : (s.sock n).op ≠ .send) :
    exec (.ctlSendDone n ok keep) s = .next s := by
  show execCtlSendDone n ok keep s = _
  rw [execCtlSendDone, beq_false_of_ne other, Bool.and_false, Bool.false_and]
  rfl

theorem exec_ctlCloseDone_other (n : SockId) (s : State) (other : ∀ had, (s.sock n).op ≠ .close had) :
    exec (.ctlCloseDone n) s = .next s := by
  show execCtlCloseDone n s = _
  rw [execCtlCloseDone]
  split
  case h_1 had closing => exact absurd closing (other had)
  case h_2 => rfl

/-! ## Receives from the network side (R249 to R253) -/

/-- What every TCP or UDP receive guard asks of the socket (R241). -/
theorem State.armed_iff (s : State) (n : SockId) (x : Status) :
    s.armed n x = true ↔ (s.sock n).recvEnabled = true ∧ (s.sock n).status = x ∧ (s.sock n).conn ≠ none := by
  simp only [State.armed, Bool.and_eq_true, beq_iff_eq, Option.isSome_iff_ne_none, and_assoc]

theorem rxTcpRule_disabled (n : SockId) (avail : List Byte) (k : Nat) (s : State)
    (disabled : ¬ ((s.sock n).recvEnabled = true ∧ (s.sock n).status = .established ∧ (s.sock n).conn ≠ none
      ∧ 1 ≤ k ∧ k ≤ avail.length ∧ k ≤ s.rxFree n)) : rxTcpRule n avail k s = s := by
  refine if_neg (mt ?_ disabled)
  simp only [Bool.and_eq_true, State.armed_iff, decide_eq_true_eq, and_assoc, imp_self]

theorem rxUdpRule_disabled (n : SockId) (ip : Quad) (port : Half) (payload : List Byte) (s : State)
    (disabled : ¬ ((s.sock n).recvEnabled = true ∧ (s.sock n).status = .udp ∧ (s.sock n).conn ≠ none
      ∧ Config.udpHdr ≤ s.rxFree n)) : rxUdpRule n ip port payload s = s := by
  refine if_neg (mt ?_ disabled)
  simp only [Bool.and_eq_true, State.armed_iff, decide_eq_true_eq, and_assoc, imp_self]

theorem rxEofRule_disabled (n : SockId) (s : State)
    (disabled : ¬ ((s.sock n).recvEnabled = true ∧ (s.sock n).status = .established ∧ (s.sock n).conn ≠ none
      ∧ (s.sock n).op = .none)) : rxEofRule n s = s := by
  refine if_neg (mt ?_ disabled)
  simp only [Bool.and_eq_true, State.armed_iff, beq_iff_eq, and_assoc, imp_self]

theorem rxErrorRule_disabled (n : SockId) (keep : Bool) (s : State)
    (disabled : ¬ ((s.sock n).recvEnabled = true
      ∧ ((s.sock n).status = .established ∨ (s.sock n).status = .udp) ∧ (s.sock n).conn ≠ none)) :
    rxErrorRule n keep s = s := by
  refine if_neg (mt ?_ disabled)
  simp only [Bool.or_eq_true, State.armed_iff]
  rintro (⟨armed, established, handle⟩ | ⟨armed, udp, handle⟩)
  · exact ⟨armed, .inl established, handle⟩
  · exact ⟨armed, .inr udp, handle⟩

/-! ## Pings (R344, R345, R347) -/

/-- R345: what is taken is the first ping that was reached and has the target. -/
theorem takeReached_eq_some {target : Quad} {l rest : List Ping} {g : Ping}
    (taken : takeReached target l = some (g, rest)) :
    ∃ pre post, l = pre ++ g :: post ∧ rest = pre ++ post ∧ (g.outcome = .reachable ∧ g.target = target)
      ∧ ∀ h ∈ pre, ¬ (h.outcome = .reachable ∧ h.target = target) := by
  induction l generalizing rest with
  | nil => cases taken
  | cons p l ih =>
    rw [takeReached] at taken
    split at taken
    case isTrue reached =>
      cases taken
      exact ⟨[], l, rfl, rfl, reached, fun _ member => absurd member List.not_mem_nil⟩
    case isFalse unreached =>
      split at taken
      case h_1 h rest' later =>
        cases taken
        obtain ⟨pre, post, whole, left, reached, before⟩ := ih later
        refine ⟨p :: pre, post, ?_, ?_, reached, List.forall_mem_cons.mpr ⟨unreached, before⟩⟩
        · rw [whole, List.cons_append]
        · rw [left, List.cons_append]
      case h_2 => cases taken

theorem rxIprawRule_disabled (n : SockId) (s : State)
    (disabled : ¬ ∃ pre g post, s.pings = pre ++ g :: post ∧ (g.outcome = .reachable ∧ g.target = s.sDipr n)
      ∧ (∀ h ∈ pre, ¬ (h.outcome = .reachable ∧ h.target = s.sDipr n)) ∧ (s.sock n).recvEnabled = true
      ∧ (s.sock n).status = .ipraw ∧ s.cfg.iprawInfoHdr + g.payload.length ≤ s.rxFree n) :
    rxIprawRule n s = s := by
  rw [rxIprawRule]
  split
  case isFalse => rfl
  case isTrue guard =>
    obtain ⟨armed, ipraw⟩ := Bool.and_eq_true_iff.mp guard
    split
    case h_1 => rfl
    case h_2 g rest taken =>
      obtain ⟨pre, post, whole, -, reached, before⟩ := takeReached_eq_some taken
      exact if_neg fun room =>
        disabled ⟨pre, g, post, whole, reached, before, armed, beq_iff_eq.mp ipraw, room⟩

theorem probeRule_absent (p : Nat) (reachable : Bool) (s : State) (absent : s.pings.length ≤ p) :
    probeRule p reachable s = s := by
  rw [probeRule, List.getElem?_eq_none absent]

theorem pingExpireRule_absent (p : Nat) (s : State) (absent : s.pings.length ≤ p) : pingExpireRule p s = s := by
  rw [pingExpireRule, List.getElem?_eq_none absent]

/-! ## Every engine -/

/-- Settles O33: each guard in the statement is the guard of one rule. -/
theorem disabledEnginesChangeNothing : Obligations.DisabledEnginesChangeNothing := by
  intro n s
  exact ⟨fun other r => exec_ctlUdpbindDone_other n r s other, fun other r d => exec_ctlListenDone_other n r d s other,
    fun other r => exec_ctlConnectDone_other n r s other, fun other ok keep => exec_ctlSendDone_other n ok keep s other,
    exec_ctlCloseDone_other n s,
    fun avail c disabled => next_ite_inert s.alive (rxTcpRule_disabled n avail c s disabled),
    fun disabled ip port payload => next_ite_inert s.alive (rxUdpRule_disabled n ip port payload s disabled),
    fun disabled => next_ite_inert s.alive (rxEofRule_disabled n s disabled),
    fun disabled keep => next_ite_inert s.alive (rxErrorRule_disabled n keep s disabled),
    fun disabled => next_ite_inert s.alive (deliverRule_withholds n s fun x held may =>
      disabled ⟨x, held, (mayDeliver_iff n x s).mp may⟩),
    fun disabled => next_ite_inert s.alive (rxIprawRule_disabled n s disabled),
    fun p absent => ⟨fun r => next_ite_inert s.alive (probeRule_absent p r s absent),
      next_ite_inert s.alive (pingExpireRule_absent p s absent)⟩⟩

end Sys2Proof.Machine
end

section
/-! SUPPORT. 46_icmp_echo.md R342, R345, R346: the pings an echo request appends and an IPRAW receive consumes. -/
namespace Sys2Proof.Machine

open Sys2Proof

/-! ## The two steps of a live block -/

theorem exec_icmpEchoRequest_alive (n : SockId) (payload : List Byte) (s : State) (alive : s.alive = true) :
    exec (.icmpEchoRequest n payload) s = .next (pingRule n payload s) :=
  congrArg Host.Outcome.next (if_pos alive)

theorem exec_rxIpraw_alive (n : SockId) (s : State) (alive : s.alive = true) :
    exec (.rxIpraw n) s = .next (rxIprawRule n s) :=
  congrArg Host.Outcome.next (if_pos alive)

/-- Settles O44: on a live block the instruction is R342's rule. -/
theorem echoRequestAppendsAPing : Obligations.EchoRequestAppendsAPing :=
  exec_icmpEchoRequest_alive

/-! ## The bytes of a reply (R121, R346) -/

/-- A length as 30_encoding.md R121 writes it: high byte first, what is past 16 bits cut off. -/
theorem halfBytes_ofNat (k : Nat) : halfBytes (BitVec.ofNat 16 k) = [BitVec.ofNat 8 (k / 256), BitVec.ofNat 8 k] := by
  have hi : hiByte (BitVec.ofNat 16 k) = BitVec.ofNat 8 (k / 256) := by
    apply BitVec.eq_of_toNat_eq
    rw [hiByte, BitVec.extractLsb'_toNat, BitVec.toNat_ofNat, BitVec.toNat_ofNat, Nat.shiftRight_eq_div_pow]
    omega
  have lo : loByte (BitVec.ofNat 16 k) = BitVec.ofNat 8 k := by
    apply BitVec.eq_of_toNat_eq
    rw [loByte, BitVec.extractLsb'_toNat, BitVec.toNat_ofNat, BitVec.toNat_ofNat, Nat.shiftRight_zero]
    omega
  rw [halfBytes, hi, lo]

/-- R346: the reply is as long as the request, if the request holds what the reply replaces. -/
theorem length_echoReply (req : List Byte) (long : 4 ≤ req.length) : (echoReply req).length = req.length := by
  simp only [echoReply, halfBytes, List.length_append, List.length_cons, List.length_nil, List.length_drop]
  omega

theorem length_freeBytes (used k : Nat) : (freeBytes used k).length = k := by
  rw [freeBytes, List.length_map, List.length_range]

theorem iprawHeader_tabled (cfg : Config.Params) (used : Nat) (target : Quad) (len : Nat)
    (tabled : cfg.iprawInfoHdr = Config.iprawHdr) :
    iprawHeader cfg used target len =
      [target.a, target.b, target.c, target.d, BitVec.ofNat 8 (len / 256), BitVec.ofNat 8 len] := by
  rw [iprawHeader, if_pos tabled, halfBytes_ofNat]
  rfl

theorem length_iprawHeader (cfg : Config.Params) (used : Nat) (target : Quad) (len : Nat) :
    (iprawHeader cfg used target len).length = cfg.iprawInfoHdr := by
  by_cases tabled : cfg.iprawInfoHdr = Config.iprawHdr
  · rw [iprawHeader_tabled cfg used target len tabled, tabled]
    rfl
  · rw [iprawHeader, if_neg tabled, length_freeBytes]

/-! ## IPRAW receive (R345) -/

/-- R345: the first ping that was reached and has the target is the one taken. -/
theorem takeReached_append {target : Quad} {pre : List Ping} (post : List Ping) {g : Ping}
    (before : ∀ h ∈ pre, ¬ (h.outcome = .reachable ∧ h.target = target))
    (reached : g.outcome = .reachable ∧ g.target = target) :
    takeReached target (pre ++ g :: post) = some (g, pre ++ post) := by
  induction pre with
  | nil => exact if_pos reached
  | cons p pre ih =>
    obtain ⟨unreached, later⟩ := List.forall_mem_cons.mp before
    rw [List.cons_append, takeReached, if_neg unreached, ih later]
    rfl

/-- The state without the answered ping, with the free values of the header counted. -/
def State.answered (s : State) (rest : List Ping) : State :=
  { s with pings := rest, freeUsed := s.freeUsed + iprawFree s.cfg }

/-- A receive neither reads nor writes the pings and the count of free values. -/
theorem State.rxCommit_answered (s : State) (n : SockId) (bytes : List Byte) (rest : List Ping) :
    (s.answered rest).rxCommit n bytes =
      { s.rxCommit n bytes with pings := rest, freeUsed := s.freeUsed + iprawFree s.cfg } := rfl

theorem rxIprawRule_delivers (n : SockId) (s : State) {g : Ping} {rest : List Ping}
    (armed : (s.sock n).recvEnabled = true) (ipraw : (s.sock n).status = .ipraw)
    (taken : takeReached (s.sDipr n) s.pings = some (g, rest))
    (room : s.cfg.iprawInfoHdr + g.payload.length ≤ s.rxFree n) :
    rxIprawRule n s = (s.answered rest).rxCommit n
      (iprawHeader s.cfg s.freeUsed g.target (echoReply g.payload).length ++ echoReply g.payload) := by
  have guard : ((s.sock n).recvEnabled && (s.sock n).status == .ipraw) = true :=
    Bool.and_eq_true_iff.mpr ⟨armed, beq_iff_eq.mpr ipraw⟩
  rw [rxIprawRule, if_pos guard, taken, State.rxCommit_answered]
  exact if_pos room

/-- Settles O46: a delivery is a receive of header and reply by the state that already lacks the answered ping. -/
theorem echoReplyIsDelivered : Obligations.EchoReplyIsDelivered := by
  intro n pre post g s alive peer len armed ipraw whole reachable target before long room
  have taken : takeReached (s.sDipr n) s.pings = some (g, pre ++ post) := by
    rw [whole]
    exact takeReached_append post before ⟨reachable, target⟩
  have replyLength : (echoReply g.payload).length = g.payload.length := length_echoReply g.payload (by omega)
  have headerLength := length_iprawHeader s.cfg s.freeUsed g.target g.payload.length
  refine ⟨_, iprawHeader s.cfg s.freeUsed g.target g.payload.length, exec_rxIpraw_alive n s alive, headerLength,
    iprawHeader_tabled s.cfg s.freeUsed g.target g.payload.length, ?_⟩
  rw [rxIprawRule_delivers n s armed ipraw taken room, replyLength]
  have fits : (iprawHeader s.cfg s.freeUsed g.target g.payload.length ++ echoReply g.payload).length ≤ s.rxSize n := by
    rw [List.length_append, headerLength, replyLength]
    exact room.trans (Nat.sub_le _ _)
  exact rxEffect_rxCommit n _ (s.answered (pre ++ post)) fits

end Sys2Proof.Machine
end

section
/-! SUPPORT. 47_firmware_facade.md R364, R365: block reads and block writes against the bus transactions they stand
for. -/
namespace Sys2Proof.Machine

open Sys2Proof

/-! ## Block reads (R365) -/

/-- R365: the reads of a live block all meet the state before the command. -/
theorem exec_fRdbytes_alive (count : Half) (s : State) (alive : s.alive = true) :
    exec (.fRdbytes count) s = .next { s with fa := { s.fa with
      out := readRun s count.toNat s.fa.addr, phase := .idle, addr := s.fa.addr + count } } :=
  whenAlive_alive s _ alive

/-- Settles O49: the queued bytes are those of `readRun`, each a bus read of the state before the command. -/
theorem facadeBlockReadIsASnapshot : Obligations.FacadeBlockReadIsASnapshot := by
  intro count s alive
  refine ⟨readRun s count.toNat s.fa.addr, exec_fRdbytes_alive count s alive, readRun_length s _ _, fun i h => ?_⟩
  rw [exec_rd_alive s alive, readRun_getElem s _ _ i h]

/-! ## The facade beside the rest of the state -/

/-- The state with its facade replaced. -/
def State.withFa (s : State) (f : Facade) : State := { s with fa := f }

/-- A result with the facade of its next state, if there is one, replaced. -/
def resultWithFa (f : Facade) : Result → Result
  | .next t => .next (t.withFa f)
  | .fault r => .fault r
  | .refused r => .refused r

/-- A rule neither reads nor writes the facade: replacing the facade before or after it is the same. -/
def IgnoresFa (rule : State → State) : Prop := ∀ f s, rule (s.withFa f) = (rule s).withFa f

/-- `IgnoresFa` for an operation that may be refused. -/
def ResultIgnoresFa (op : State → Result) : Prop := ∀ f s, op (s.withFa f) = resultWithFa f (op s)

theorem IgnoresFa.next {rule : State → State} (h : IgnoresFa rule) : ResultIgnoresFa fun s => .next (rule s) :=
  fun f s => congrArg Host.Outcome.next (h f s)

theorem IgnoresFa.comp {g h : State → State} (hg : IgnoresFa g) (hh : IgnoresFa h) : IgnoresFa fun s => g (h s) :=
  fun f s => (congrArg g (hh f s)).trans (hg f (h s))

/-- A rule guarded by a test that does not look at the facade. -/
theorem IgnoresFa.guarded {p : State → Prop} [DecidablePred p] {g h : State → State}
    (blind : ∀ f s, p (s.withFa f) ↔ p s) (hg : IgnoresFa g) (hh : IgnoresFa h) :
    IgnoresFa fun s => if p s then g s else h s := by
  intro f s
  simp only [blind f s, hg f s, hh f s]
  exact (apply_ite (State.withFa · f) _ _ _).symm

theorem ResultIgnoresFa.guarded {p : State → Prop} [DecidablePred p] {g h : State → Result}
    (blind : ∀ f s, p (s.withFa f) ↔ p s) (hg : ResultIgnoresFa g) (hh : ResultIgnoresFa h) :
    ResultIgnoresFa fun s => if p s then g s else h s := by
  intro f s
  simp only [blind f s, hg f s, hh f s]
  exact (apply_ite (resultWithFa f) _ _ _).symm

/-- A destroyed block refuses whatever its facade holds. -/
theorem whenAlive_ignoresFa {op : State → Result} (h : ResultIgnoresFa op) :
    ResultIgnoresFa fun s => whenAlive s (op s) :=
  .guarded (p := fun s => s.alive = true) (fun _ _ => .rfl) h (fun _ _ => rfl)

/-! ## Socket commands -/

theorem ignoreCommand_ignoresFa (n : SockId) : IgnoresFa (State.ignoreCommand · n) := fun _ _ => rfl

theorem openTcp_ignoresFa (n : SockId) : IgnoresFa (openTcp n) :=
  .guarded (p := fun s => s.mayOpen n = true) (fun _ _ => .rfl) (fun _ _ => rfl) (ignoreCommand_ignoresFa n)

theorem openUdp_ignoresFa (n : SockId) : IgnoresFa (openUdp n) :=
  .guarded (p := fun s => s.mayOpen n = true) (fun _ _ => .rfl) (fun _ _ => rfl) (ignoreCommand_ignoresFa n)

theorem openIpraw_ignoresFa (n : SockId) : IgnoresFa (openIpraw n) :=
  .guarded (p := fun s => s.mayOpen n = true) (fun _ _ => .rfl) (fun _ _ => rfl) (ignoreCommand_ignoresFa n)

theorem openByMode_ignoresFa (n : SockId) : IgnoresFa (openByMode n) := by
  intro f s
  have mode : decodeSmode (s.withFa f).cfg.codes n ((s.withFa f).sMr n) = decodeSmode s.cfg.codes n (s.sMr n) := rfl
  simp only [openByMode, mode]
  split
  · exact openTcp_ignoresFa n f s
  · exact openUdp_ignoresFa n f s
  · exact openIpraw_ignoresFa n f s
  · rfl

theorem listenRule_ignoresFa (n : SockId) : IgnoresFa (listenRule n) :=
  .guarded (p := fun s => (s.sock n).status = .init) (fun _ _ => .rfl) (fun _ _ => rfl) (ignoreCommand_ignoresFa n)

theorem connectRule_ignoresFa (n : SockId) : IgnoresFa (connectRule n) :=
  .guarded (p := fun s => (s.sock n).status = .init) (fun _ _ => .rfl) (fun _ _ => rfl) (ignoreCommand_ignoresFa n)

theorem startClose_ignoresFa (n : SockId) (v : Byte) : IgnoresFa (startClose n v) :=
  .guarded (p := fun s => (s.sock n).status = .closed) (fun _ _ => .rfl) (ignoreCommand_ignoresFa n) (fun _ _ => rfl)

theorem sendRule_ignoresFa (n : SockId) : ResultIgnoresFa (sendRule n) :=
  .guarded (p := fun s => transfers (s.sock n).status = true) (fun _ _ => .rfl)
    (.guarded (p := fun s => s.txSize n < s.txUsed n) (fun _ _ => .rfl) (fun _ _ => rfl) (fun _ _ => rfl))
    (ignoreCommand_ignoresFa n).next

theorem sendMacRule_ignoresFa (n : SockId) : IgnoresFa (sendMacRule n) :=
  .guarded (p := fun s => keeps (s.sock n).status = true) (fun _ _ => .rfl) (fun _ _ => rfl) (ignoreCommand_ignoresFa n)

theorem sendKeepRule_ignoresFa (n : SockId) : IgnoresFa (sendKeepRule n) :=
  .guarded (p := fun s => keeps (s.sock n).status = true) (fun _ _ => .rfl)
    (.guarded (p := fun s => (s.sock n).conn = none) (fun _ _ => .rfl) (fun _ _ => rfl) (fun _ _ => rfl))
    (ignoreCommand_ignoresFa n)

theorem recvRule_ignoresFa (n : SockId) : IgnoresFa (recvRule n) :=
  .guarded (p := fun s => transfers (s.sock n).status = true) (fun _ _ => .rfl) (fun _ _ => rfl)
    (ignoreCommand_ignoresFa n)

/-- R200: the dispatcher looks at the operation in flight only. -/
theorem dispatch_ignoresFa (closing : Bool) (n : SockId) {rule : State → Result} (h : ResultIgnoresFa rule) :
    ResultIgnoresFa (dispatch closing n rule) := by
  intro f s
  have op : ((s.withFa f).sock n).op = (s.sock n).op := rfl
  have alive : (s.withFa f).alive = s.alive := rfl
  have abandoned : (s.withFa f).setOp n .none = (s.setOp n .none).withFa f := rfl
  simp only [dispatch, op, alive, abandoned, h f]
  cases s.alive with
  | false => rfl
  | true =>
    cases (s.sock n).op with
    | none => rfl
    | close had => cases closing <;> rfl
    | udpBind | listen | connect _ | send => cases closing <;> rfl

theorem commandWrite_ignoresFa (n : SockId) (v : Byte) : ResultIgnoresFa (commandWrite n v) := by
  intro f s
  have code : decodeScmd (s.withFa f).cfg.codes n v = decodeScmd s.cfg.codes n v := rfl
  simp only [commandWrite, code]
  split
  · exact whenAlive_ignoresFa (op := .next) (fun _ _ => rfl) f s
  · exact dispatch_ignoresFa _ n (openByMode_ignoresFa n).next f s
  · exact dispatch_ignoresFa _ n (listenRule_ignoresFa n).next f s
  · exact dispatch_ignoresFa _ n (connectRule_ignoresFa n).next f s
  · exact dispatch_ignoresFa _ n (startClose_ignoresFa n s.cfg.codes.cmdDiscon).next f s
  · exact dispatch_ignoresFa _ n (startClose_ignoresFa n s.cfg.codes.cmdClose).next f s
  · exact dispatch_ignoresFa _ n (sendRule_ignoresFa n) f s
  · exact dispatch_ignoresFa _ n (sendMacRule_ignoresFa n).next f s
  · exact dispatch_ignoresFa _ n (sendKeepRule_ignoresFa n).next f s
  · exact dispatch_ignoresFa _ n (recvRule_ignoresFa n).next f s
  · exact dispatch_ignoresFa _ n (ignoreCommand_ignoresFa n).next f s

/-! ## Resets (70_reset_and_hazards.md R441) -/

theorem stopSock_ignoresFa (n : SockId) : IgnoresFa (State.stopSock · n) := by
  intro f s
  simp only [State.stopSock, State.closeHandles_eq]
  rfl

theorem stopAll_ignoresFa : IgnoresFa State.stopAll :=
  (stopSock_ignoresFa 3).comp ((stopSock_ignoresFa 2).comp ((stopSock_ignoresFa 1).comp (stopSock_ignoresFa 0)))

theorem poke_ignoresFa (a : Nat) (v : Byte) : IgnoresFa (State.poke · a v) := fun _ _ => rfl

theorem initCursors_ignoresFa (n : SockId) : IgnoresFa (State.initCursors · n) := fun _ _ => rfl

theorem initAll_ignoresFa : IgnoresFa State.initAll :=
  (initCursors_ignoresFa 3).comp <| (initCursors_ignoresFa 2).comp <| (initCursors_ignoresFa 1).comp <|
    initCursors_ignoresFa 0

theorem seedRegs_ignoresFa : IgnoresFa State.seedRegs := fun _ _ => rfl

theorem defaultRegs_ignoresFa : IgnoresFa State.defaultRegs := fun _ _ => rfl

theorem softReset_ignoresFa : IgnoresFa State.softReset := by
  have emptySides : IgnoresFa State.emptySides := fun _ _ => rfl
  have afterMode := emptySides.comp <| initAll_ignoresFa.comp <| defaultRegs_ignoresFa.comp seedRegs_ignoresFa
  have modeCleared (a : Nat) : IgnoresFa fun s => s.stopAll.poke a 0x00 :=
    (poke_ignoresFa a 0x00).comp stopAll_ignoresFa
  exact fun f s => afterMode.comp (modeCleared s.cfg.map.cMr) f s

theorem writeCMr_ignoresFa (v : Byte) : IgnoresFa (State.writeCMr · v) :=
  .guarded (p := fun _ => v.getLsbD 7 = true) (fun _ _ => .rfl) softReset_ignoresFa (fun _ _ => rfl)

/-! ## Bus writes (R152) -/

theorem commitRxRd_ignoresFa (n : SockId) (v : Byte) : ResultIgnoresFa (State.commitRxRd · n v) :=
  .guarded
    (p := fun s => s.rxUsed n < (half (s.load (sockAddr s.cfg.map n s.cfg.map.oRxRd)) v - (s.sock n).rxRd).toNat)
    (fun _ _ => .rfl) (fun _ _ => rfl) (fun _ _ => rfl)

/-- No arm of a bus write reads or writes the facade. -/
theorem busWrite_ignoresFa (addr : Half) (v : Byte) : ResultIgnoresFa (busWrite addr v) := by
  refine whenAlive_ignoresFa fun f s => ?_
  have selected : locate (s.withFa f).cfg.map (busAddr (s.withFa f).cfg.map addr)
      = locate s.cfg.map (busAddr s.cfg.map addr) := rfl
  simp only [selected]
  split
  case h_2 => exact (writeCMr_ignoresFa v).next f s
  case h_4 n _ => exact commandWrite_ignoresFa n v f s
  case h_8 n _ => exact commitRxRd_ignoresFa n v f s
  all_goals rfl

/-! ## Block writes (R364) -/

/-- The facade after the bytes `data` of a block write: the address advanced, the parser idle. -/
def Facade.afterData (f : Facade) (data : List Byte) : Facade :=
  { f with addr := f.addr + BitVec.ofNat 16 data.length, phase := .idle }

/-- One data byte is one bus write, after which the facade has moved on. -/
theorem dataByte_withFa (left : Nat) (d : Byte) (s : State) (f : Facade) :
    dataByte left d (s.withFa f) = resultWithFa
      { f with addr := f.addr + 1, phase := if left ≤ 1 then .idle else .data (left - 1) } (busWrite f.addr d s) := by
  have bus : busWrite (s.withFa f).fa.addr d (s.withFa f) = resultWithFa f (busWrite f.addr d s) :=
    busWrite_ignoresFa f.addr d f s
  rw [dataByte, bus]
  cases busWrite f.addr d s <;> rfl

/-- Addresses ascend modulo 65536. -/
theorem add_one_add_ofNat (a : Half) (k : Nat) : a + 1 + BitVec.ofNat 16 k = a + BitVec.ofNat 16 (k + 1) := by
  rw [Nat.add_comm, BitVec.ofNat_add, BitVec.add_assoc]
  rfl

theorem afterData_cons (f : Facade) (phase : FaPhase) (d : Byte) (ds : List Byte) :
    Facade.afterData { f with addr := f.addr + 1, phase := phase } ds = f.afterData (d :: ds) := by
  rw [Facade.afterData, Facade.afterData, List.length_cons, ← add_one_add_ofNat]

/-- The data bytes of a block write are bus writes at ascending addresses, whatever the facade the state holds. -/
theorem writeData_withFa (data : List Byte) (s : State) (f : Facade) (idle : data = [] → f.phase = .idle) :
    writeData data (s.withFa f) = resultWithFa (f.afterData data) (busWrites f.addr data s) := by
  induction data generalizing s f with
  | nil =>
    have same : f.afterData [] = f := by simp [Facade.afterData, ← idle rfl]
    rw [same]
    rfl
  | cons d ds ih =>
    rw [writeData, dataByte_withFa, busWrites, exec_wr_eq_busWrite]
    cases busWrite f.addr d s with
    | next t =>
      refine (ih t _ fun last => ?_).trans (by rw [afterData_cons])
      simp [last]
    | fault r => rfl
    | refused r => rfl

theorem exec_fWrbytes_alive (data : List Byte) (s : State) (alive : s.alive = true) :
    exec (.fWrbytes data) s = resultWithFa ({ s.fa with out := [] }.afterData data) (busWrites s.fa.addr data s) := by
  have begins : exec (.fWrbytes data) s = writeData data (s.beginData data.length) := whenAlive_alive s _ alive
  exact begins.trans (writeData_withFa data s _ fun empty => by simp [empty])

/-! ## Bus writes that cannot be refused (70_reset_and_hazards.md R460 H2, H3, H6) -/

/-- The arms of R152 whose writes are never refused: all but the command bytes and the commit of `S[n].RX_RD`. -/
def cannotRefuse : Loc → Bool
  | .sCr _ | .rxRdLo _ => false
  | _ => true

theorem cannotRefuse_orElse {x y : Loc} (hx : cannotRefuse x = true) (hy : cannotRefuse y = true) :
    cannotRefuse (x.orElse y) = true := by
  cases x
  case plain => exact hy
  all_goals exact hx

theorem cannotRefuse_anySocket {arm : SockId → Loc} (h : ∀ n, cannotRefuse (arm n) = true) :
    cannotRefuse (anySocket arm) = true :=
  cannotRefuse_orElse (cannotRefuse_orElse (cannotRefuse_orElse (h 0) (h 1)) (h 2)) (h 3)

/-- What `NeverRefused` asks of an address keeps it out of the two arms that may refuse. -/
theorem locate_cannotRefuse (m : Config.AddressMap) (a : Nat)
    (h : ∀ n : SockId, a ≠ sockAddr m n m.oCr ∧ a ≠ sockAddr m n (m.oRxRd + 1)) :
    cannotRefuse (locate m a) = true := by
  have command (n : SockId) : cannotRefuse (commandLoc m a n) = true := by
    rw [commandLoc, if_neg (h n).1]
    rfl
  have interrupt (n : SockId) : cannotRefuse (interruptLoc m a n) = true := by
    rw [interruptLoc]
    split <;> rfl
  have device (n : SockId) : cannotRefuse (deviceLoc m a n) = true := by
    rw [deviceLoc]
    split_ifs <;> rfl
  have commit (n : SockId) : cannotRefuse (commitLoc m a n) = true := by
    rw [commitLoc, if_neg (h n).2]
    split <;> rfl
  rw [locate]
  split_ifs
  case neg =>
    exact cannotRefuse_orElse
      (cannotRefuse_orElse (cannotRefuse_anySocket command) (cannotRefuse_anySocket interrupt))
      (cannotRefuse_orElse (cannotRefuse_anySocket device) (cannotRefuse_anySocket commit))
  all_goals rfl

theorem State.writeCMr_alive (s : State) (v : Byte) : (s.writeCMr v).alive = s.alive := by
  rw [State.writeCMr, apply_ite State.alive, State.softReset_alive, State.poke_alive, ite_self]

theorem State.writeCMr_cfg (s : State) (v : Byte) : (s.writeCMr v).cfg = s.cfg := by
  rw [State.writeCMr, apply_ite State.cfg, State.softReset_cfg, State.poke_cfg, ite_self]

/-- Where no arm refuses, a bus write of a live block leaves it alive in its configuration. -/
theorem busWrite_completes (addr : Half) (v : Byte) (s : State) (alive : s.alive = true)
    (h : NeverRefused s.cfg.map addr) :
    ∃ t, busWrite addr v s = .next t ∧ t.alive = true ∧ t.cfg = s.cfg := by
  have safe := locate_cannotRefuse s.cfg.map (busAddr s.cfg.map addr) h
  rw [busWrite, whenAlive_alive s _ alive]
  revert safe
  cases locate s.cfg.map (busAddr s.cfg.map addr) with
  | sCr n | rxRdLo n => exact fun safe => absurd safe Bool.false_ne_true
  | cMr => exact fun _ => ⟨_, rfl, (s.writeCMr_alive v).trans alive, s.writeCMr_cfg v⟩
  | outside | cIr | sIr n | sDev n r | txWrLo n | plain => exact fun _ => ⟨_, rfl, alive, rfl⟩

theorem busWrites_completes (data : List Byte) (a : Half) (s : State) (alive : s.alive = true)
    (h : ∀ i, i < data.length → NeverRefused s.cfg.map (a + BitVec.ofNat 16 i)) : Completes (busWrites a data s) := by
  induction data generalizing a s with
  | nil => exact ⟨s, rfl⟩
  | cons d ds ih =>
    have first : NeverRefused s.cfg.map a := by simpa using h 0 (Nat.succ_pos _)
    obtain ⟨t, next, aliveAfter, cfg⟩ := busWrite_completes a d s alive first
    rw [busWrites, exec_wr_eq_busWrite, next]
    refine ih (a + 1) t aliveAfter fun i lt => ?_
    rw [cfg, add_one_add_ofNat]
    exact h (i + 1) (Nat.succ_lt_succ lt)

theorem Completes.withFa {r : Result} (h : Completes r) (f : Facade) : Completes (resultWithFa f r) := by
  obtain ⟨t, rfl⟩ := h
  exact ⟨t.withFa f, rfl⟩

/-- Settles O50: the facade is advanced beside the bus writes, none of which looks at it. -/
theorem facadeBlockWriteIsBusWrites : Obligations.FacadeBlockWriteIsBusWrites := by
  intro data s alive _
  rw [exec_fWrbytes_alive data s alive]
  constructor
  · cases busWrites s.fa.addr data s <;> rfl
  · exact fun h => (busWrites_completes data s.fa.addr s alive h).withFa _

end Sys2Proof.Machine
end

section
/-! SUPPORT. 70_reset_and_hazards.md R441 to R446: what the four lifecycle requests leave. -/
namespace Sys2Proof.Machine

open Sys2Proof

/-! ## The four requests of a live block (R440) -/

theorem lifeRequest_alive (f : State → State) (s : State) (alive : s.alive = true) :
    lifeRequest f s = .next (f s) :=
  congrArg Host.Outcome.next (if_pos alive)

theorem exec_lifeSoft_alive (s : State) (alive : s.alive = true) : exec .lifeSoft s = .next s.lifeSoft :=
  lifeRequest_alive _ s alive

theorem exec_lifeColdOn_alive (s : State) (alive : s.alive = true) : exec .lifeColdOn s = .next s.coldOn :=
  lifeRequest_alive _ s alive

theorem exec_lifePowerOff_alive (s : State) (alive : s.alive = true) : exec .lifePowerOff s = .next s.powerOff :=
  lifeRequest_alive _ s alive

theorem exec_lifeDestroy_alive (s : State) (alive : s.alive = true) : exec .lifeDestroy s = .next s.destroy :=
  lifeRequest_alive _ s alive

/-! ## The facade reset (R444) -/

theorem facadeCleared_reset (now : Nat) : FacadeCleared (Facade.reset now) now where
  addr := rfl
  slots _ := Vector.getElem_replicate _
  phase := rfl
  out := rfl
  err := rfl
  base := rfl

/-- What `SoftReset()` leaves does not depend on the facade. -/
theorem SoftResetEffect.withFa {s t : State} (e : SoftResetEffect s t) (f : Facade) : SoftResetEffect s (t.withFa f) :=
  { e with rest := congrArg (State.withFa · f) e.rest }

/-- `SoftReset()` followed by the facade reset, which `soft` and `cold_on` share. -/
theorem softReset_resetFacade (s : State) (h : s.cfg.Tabled) :
    SoftResetEffect s s.softReset.resetFacade ∧ FacadeCleared s.softReset.resetFacade.fa s.now :=
  ⟨(softResetEffect_softReset s h).withFa _, s.softReset_now ▸ facadeCleared_reset _⟩

/-! ## Soft request (R441) -/

/-- Settles O11: `soft` is `SoftReset()` followed by the facade reset. -/
theorem softRequestResets : Obligations.SoftRequestResets := by
  intro s alive h
  exact ⟨s.lifeSoft, exec_lifeSoft_alive s alive, softReset_resetFacade s h⟩

/-! ## Cold reset (R442) -/

/-- A reset record leaves the whole TX ring free. -/
theorem peek16_txFsr_of_reset (t : State) (h : t.cfg.Tabled) (n : SockId) (record : t.sock n = Sock.reset) :
    (t.peek16 (blockAddr n 0x20)).toNat = t.txSize n := by
  have unused : t.txUsed n = 0 := by rw [State.txUsed, record]; rfl
  rw [peek16_txFsr t h, State.txFree, unused, Nat.sub_zero]

/-- The two bytes of `S[n].TX_FSR`. -/
def isTxFsr : Loc → Bool
  | .sDev _ .txFsrHi | .sDev _ .txFsrLo => true
  | _ => false

theorem isTxFsr_offsetLoc :
    ∀ n : SockId, ∀ off ∈ hookOffsets, off ≠ 0x20 ∧ off ≠ 0x21 → isTxFsr (offsetLoc n off) = false := by decide

/-- In the tabled layout `TX_FSR` stands at its two addresses only. -/
theorem isTxFsr_locate (a : Nat) (inside : a < 0x8000)
    (notTxFsr : ∀ n : SockId, a ≠ blockAddr n 0x20 ∧ a ≠ blockAddr n 0x21) : isTxFsr (locate .tabled a) = false := by
  by_cases hook : ∃ n : SockId, ∃ off ∈ hookOffsets, a = blockAddr n off
  case pos =>
    obtain ⟨n, off, mem, rfl⟩ := hook
    rw [locate_blockAddr n off (Nat.lt_trans (hookOffsets_lt off mem) (by omega))]
    obtain ⟨notHi, notLo⟩ := notTxFsr n
    exact isTxFsr_offsetLoc n off mem ⟨fun e => notHi (e ▸ rfl), fun e => notLo (e ▸ rfl)⟩
  by_cases mode : a = 0x0000
  case pos => subst mode; rfl
  by_cases summary : a = 0x0015
  case pos => subst summary; rfl
  have plain : PlainAddr a := ⟨inside, mode, summary, fun n off mem e => hook ⟨n, off, mem, e⟩⟩
  rw [locate_plain a plain]
  rfl

/-- The device-owned registers of a reset socket are zero, apart from `TX_FSR`: its status is CLOSED, whose code is 0 in
the tables (30_encoding.md R114), and its cursors are equal. -/
theorem devByte_of_reset (t : State) (h : t.cfg.Tabled) (n : SockId) (record : t.sock n = Sock.reset) (r : DevByte)
    (notTxFsr : isTxFsr (.sDev n r) = false) : t.devByte n r = 0 := by
  have closed : statusCode t.cfg.codes .closed = 0x00 := by rw [h.codes]; rfl
  cases r with
  | sr => exact (congrArg (fun k => statusCode t.cfg.codes k.status) record).trans closed
  | txFsrHi | txFsrLo => exact Bool.noConfusion notTxFsr
  | txRdHi | txRdLo | rxRsrHi | rxRsrLo | rxWrHi | rxWrLo =>
    simp only [State.devByte, record]
    rfl

/-- Where every record is reset, a byte whose cell is zero reads zero, apart from `TX_FSR`. -/
theorem peek_of_reset (t : State) (h : t.cfg.Tabled) (records : ∀ n, t.sock n = Sock.reset) (a : Nat)
    (stored : t.load a = 0) (notTxFsr : isTxFsr (locate t.cfg.map a) = false) : t.peek a = 0 := by
  rw [State.peek]
  cases loc : locate t.cfg.map a with
  | cIr => exact (cIr_eq_zero_iff t).2 fun n => congrArg Sock.ir (records n)
  | sIr n => exact congrArg Sock.ir (records n)
  | sDev n r => exact devByte_of_reset t h n (records n) r (loc ▸ notTxFsr)
  | cMr | sCr n | txWrLo n | rxRdLo n | plain | outside => exact stored

/-- R442 as R441 and R444 on a zeroed window. -/
theorem coldOn_effect (s : State) (h : s.cfg.Tabled) :
    SoftResetEffect { s with mem := [] } s.coldOn ∧ FacadeCleared s.coldOn.fa s.now :=
  softReset_resetFacade { s with mem := [] } h

/-- `SoftReset()` of a zeroed window stores nothing but the common registers. -/
theorem SoftResetEffect.load_of_zeroed {s t : State} (e : SoftResetEffect { s with mem := [] } t) (a : Nat)
    (elsewhere : a ∉ commonResetAddrs) : t.load a = 0 := by
  by_cases cleared : ∃ n : SockId, ∃ off ∈ sockResetOffsets, a = blockAddr n off
  · obtain ⟨n, off, mem, rfl⟩ := cleared
    exact e.sockBytes n off mem
  · exact e.kept a elsewhere fun n off mem eq => cleared ⟨n, off, mem, eq⟩

theorem SoftResetEffect.tabled {s t : State} (e : SoftResetEffect s t) (h : s.cfg.Tabled) : t.cfg.Tabled := by
  rw [e.rest]
  exact h

/-- Settles O12: `cold_on` is the soft request on a zeroed window, where only the seeded and defaulted registers and
`TX_FSR` are left to show anything. -/
theorem coldRequestZeroesTheWindow : Obligations.ColdRequestZeroesTheWindow := by
  intro s alive h
  obtain ⟨effect, facade⟩ := coldOn_effect s h
  have next := exec_lifeColdOn_alive s alive
  generalize s.coldOn = t at effect facade next
  have tabled : t.cfg.Tabled := effect.tabled h
  refine ⟨t, next, effect, facade, fun n => peek16_txFsr_of_reset t tabled n (effect.records n),
    fun a elsewhere notTxFsr inside => ?_⟩
  have located : isTxFsr (locate t.cfg.map a) = false := tabled.map ▸ isTxFsr_locate a inside notTxFsr
  exact peek_of_reset t tabled effect.records a (effect.load_of_zeroed a elsewhere) located

/-! ## Power-off (R443) -/

/-- Selectors of zero ask for four rings of 1024 bytes, which fit their bank (41_ring_buffers.md R181, R182). -/
theorem effectiveSize_zero : ∀ n : SockId, effectiveSize 8192 0x00 n = 1024 := by
  intro n
  have request (k : Nat) : reqSize 0x00 k = 1024 := by simp [reqSize_eq]
  have offset : ringOffset 0x00 n.val = n.val * 1024 := by
    rw [ringOffset_eq_sum, funext request]
    simp
  rw [effectiveSize, offset, request, if_pos (by omega)]

/-- Where nothing is stored every ring has 1024 bytes. -/
theorem ringSizes_of_zero (t : State) (h : t.cfg.Tabled) (zero : ∀ a, t.load a = 0) (n : SockId) :
    t.txSize n = 1024 ∧ t.rxSize n = 1024 := by
  have bank : t.cfg.map.bankSize = 8192 := by rw [h.map]; rfl
  rw [State.txSize, State.rxSize, bank, zero, zero]
  exact ⟨effectiveSize_zero n, effectiveSize_zero n⟩

/-- Settles O13: power-off zeroes the stored bytes, and what the views then show follows from the zero selectors and
the reset records. -/
theorem powerOffZeroesWithoutSeeding : Obligations.PowerOffZeroesWithoutSeeding := by
  intro s alive h
  have rest := s.powerOff_rest
  have zero := s.load_powerOff h
  have fa : s.powerOff.fa = Facade.reset s.now := by rw [rest]
  have cfg : s.powerOff.cfg = s.cfg := by rw [rest]
  have tabled : s.powerOff.cfg.Tabled := cfg.symm ▸ h
  refine ⟨s.powerOff, exec_lifePowerOff_alive s alive, zero, s.sock_powerOff, fun n => ?_, ?_, ?_, ?_⟩
  · obtain ⟨tx, rx⟩ := ringSizes_of_zero s.powerOff tabled zero n
    have free := peek16_txFsr_of_reset s.powerOff tabled n (s.sock_powerOff n)
    exact ⟨tx, rx, BitVec.eq_of_toNat_eq (free.trans tx)⟩
  · rw [fa]
    exact facadeCleared_reset s.now
  · rw [rest]
    exact alive
  · rw [fa]
    exact rest

/-! ## Destroy (R445) -/

/-- The addresses `destroy` writes in the common block: `SoftReset()`'s without the seeded registers. -/
def destroyAddrs : List Nat := [0x0000, 0x0017, 0x0018, 0x0019, 0x001A, 0x001B, 0x0028]

/-- Apart from the common registers `destroy` clears the stored command and cursor bytes and keeps every other byte. -/
theorem load_destroy_elsewhere (s : State) (h : s.cfg.Tabled) (a : Nat) (elsewhere : a ∉ destroyAddrs) :
    s.destroy.load a =
      if ∃ n : SockId, ∃ off ∈ sockResetOffsets, a = blockAddr n off then 0 else s.load a := by
  have offsets : (∃ n : SockId, ∃ off ∈ sockResetOffsets, a = blockAddr n off) ↔
      (∃ n : SockId, ∃ off ∈ cursorOffsets, a = blockAddr n off) ∨ ∃ n : SockId, a = blockAddr n 0x01 := by
    simp only [sockResetOffsets, cursorOffsets, List.exists_mem_cons_iff, ← exists_or, or_comm]
  simp only [destroyAddrs, List.mem_cons, List.not_mem_nil, or_false, not_or] at elsewhere
  simp only [State.load_destroy s h, elsewhere, if_false, offsets, ite_or]

/-- What `destroy` writes in the common block `SoftReset()` writes too, so no socket block holds any of it. -/
theorem blockAddr_not_destroyAddrs (n : SockId) (off : Nat) : blockAddr n off ∉ destroyAddrs := by
  have among : ∀ a ∈ destroyAddrs, a ∈ commonResetAddrs := by decide
  exact fun mem => blockAddr_not_common n off (among _ mem)

/-- The `RESET_*` lines stand after `destroy`. -/
theorem destroy_defaults (s : State) (h : s.cfg.Tabled) :
    s.destroy.load 0x0000 = 0 ∧ s.destroy.load16 0x0017 = s.cfg.resetRtr ∧ s.destroy.load 0x0019 = s.cfg.resetRcr
      ∧ s.destroy.load 0x001A = s.cfg.resetRmsr ∧ s.destroy.load 0x001B = s.cfg.resetTmsr
      ∧ s.destroy.load 0x0028 = s.cfg.resetPtimer := by
  simp [State.load16, State.load_destroy s h, not_cursor_of_common]

/-- Settles O14: `destroy` writes the common registers it defaults, the command and the cursor bytes, nothing else. -/
theorem destroyStopsTheBlock : Obligations.DestroyStopsTheBlock := by
  intro s alive h
  have rest := s.destroy_rest
  have stopped : s.destroy.alive = false := by rw [rest]
  obtain ⟨mode, rtr, rcr, rmsr, tmsr, ptimer⟩ := destroy_defaults s h
  refine ⟨s.destroy, exec_lifeDestroy_alive s alive, stopped, s.sock_destroy, mode, rtr, rcr, rmsr, tmsr, ptimer,
    fun n off cleared => ?_, fun a elsewhere other => ?_, rest⟩
  · rw [load_destroy_elsewhere s h _ (blockAddr_not_destroyAddrs n off), if_pos ⟨n, off, cleared, rfl⟩]
  · rw [load_destroy_elsewhere s h a elsewhere, if_neg]
    rintro ⟨n, off, cleared, e⟩
    exact other n off cleared e

end Sys2Proof.Machine
end

section
/-! SUPPORT. 30_encoding.md: what the decoder reads off the unit the encoder writes, format by format. -/
namespace Sys2Proof.Machine

open Sys2Proof

/-! ## BUS (R111) -/

/-- Bit 24 of a record is its direction. -/
theorem getLsbD_encodeBus (w : Bool) (addr : Half) (d : Byte) : (encodeBus w addr d).getLsbD 24 = w :=
  calc (encodeBus w addr d).getLsbD 24
      = (BitVec.ofBool w ++ addr).getLsbD 16 := BitVec.getLsbD_append
    _ = (BitVec.ofBool w).getLsbD 0 := BitVec.getLsbD_append
    _ = w := by cases w <;> rfl

/-- Bits 23:8 of a record are its address. -/
theorem extract_addr_encodeBus (w : Bool) (addr : Half) (d : Byte) :
    (encodeBus w addr d).extractLsb' 8 16 = addr :=
  calc (encodeBus w addr d).extractLsb' 8 16
      = (BitVec.ofBool w ++ addr).extractLsb' 0 16 := BitVec.extractLsb'_append_eq_of_le (Nat.le_refl 8)
    _ = addr.extractLsb' 0 16 := BitVec.extractLsb'_append_eq_of_add_le (Nat.le_refl 16)
    _ = addr := BitVec.extractLsb'_eq_self

/-- Bits 7:0 of a record are its data. -/
theorem extract_data_encodeBus (w : Bool) (addr : Half) (d : Byte) : (encodeBus w addr d).extractLsb' 0 8 = d :=
  calc (encodeBus w addr d).extractLsb' 0 8
      = d.extractLsb' 0 8 := BitVec.extractLsb'_append_eq_of_add_le (Nat.le_refl 8)
    _ = d := BitVec.extractLsb'_eq_self

theorem decodeBus_read (m : Config.AddressMap) (addr : Half) (d : Byte) :
    decodeBus m (encodeBus false addr d) = .rd addr := by
  simp only [decodeBus, getLsbD_encodeBus, extract_addr_encodeBus]
  rfl

/-- The BUS row of a write transaction, by what its address selects (40_register_access.md R152). -/
def writeRow (addr : Half) (d : Byte) : Loc → Instr
  | .cMr => .wrCMr d
  | .cIr => .wrCIr d
  | .sCr n => .wrSnCr n d
  | .sIr n => .wrSnIr n d
  | .sDev n .sr => .wrSnSr n d
  | .txWrLo n => .wrSnTxWrLo n d
  | .rxRdLo n => .wrSnRxRdLo n d
  | _ => .wr addr d

theorem decodeBus_write (m : Config.AddressMap) (addr : Half) (d : Byte) :
    decodeBus m (encodeBus true addr d) = writeRow addr d (locate m (busAddr m addr)) := by
  simp only [decodeBus, getLsbD_encodeBus, extract_addr_encodeBus, extract_data_encodeBus, if_true]
  cases locate m (busAddr m addr) with
  | sDev n r => cases r <;> rfl
  | _ => rfl

/-- Settles O7: each arm of `BusWrite` is the meaning of the row its address selects. -/
theorem genericWriteAgreesWithItsRow : Obligations.GenericWriteAgreesWithItsRow := by
  intro addr d s
  rw [decodeBus_write, exec_wr_eq_busWrite]
  cases selected : locate s.cfg.map (busAddr s.cfg.map addr) with
  | sDev n r =>
    cases r with
    | sr => rw [busWrite, selected]; rfl
    | _ => rfl
  | outside | plain => rfl
  | _ => rw [busWrite, selected]; rfl

/-- The generic row is its own, where no other row selects the address. -/
theorem decodeBus_write_generic (m : Config.AddressMap) (addr : Half) (d : Byte) (generic : genericAddr m addr = true) :
    decodeBus m (encodeBus true addr d) = .wr addr d := by
  rw [decodeBus_write]
  rw [genericAddr] at generic
  cases selected : locate m (busAddr m addr) with
  | sDev n r =>
    cases r with
    | sr => simp [selected] at generic
    | _ => rfl
  | outside | plain => rfl
  | _ => simp [selected] at generic

/-- A write to a socket block, in the tabled layout, by its offset. -/
theorem decodeBus_sockWrite (n : SockId) (off : Nat) (d : Byte) (lt : off < 0x100) :
    decodeBus .tabled (encodeBus true (BitVec.ofNat 16 (sockAddr .tabled n off)) d) =
      writeRow (BitVec.ofNat 16 (blockAddr n off)) d (offsetLoc n off) := by
  have selected := locate_busAddr_blockAddr State.reset ⟨rfl, rfl, rfl⟩ n off lt
  rw [decodeBus_write, sockAddr_tabled]
  exact congrArg _ selected

/-! ## SCMD and SMODE (R112, R113, R116) -/

theorem decodeScmd_unrecognised (n : SockId) (code : Byte) (unrecognised : unrecognisedCode .tabled code = true) :
    decodeScmd .tabled n code = .scmdUnrecognised n code := by
  simp only [unrecognisedCode, Config.Codes.commands, Bool.not_eq_true', List.contains_eq_mem, decide_eq_false_iff_not,
    List.mem_cons, List.not_mem_nil, or_false, not_or] at unrecognised
  simp [decodeScmd, unrecognised]

/-- Bits 7:4 of a mode byte. -/
theorem extract_hi_encodeMode (hi p : BitVec 4) : (encodeMode hi p).extractLsb' 4 4 = hi :=
  (BitVec.extractLsb'_append_eq_of_le (Nat.le_refl 4)).trans BitVec.extractLsb'_eq_self

/-- Bits 3:0 of a mode byte, the protocol nibble. -/
theorem extract_nibble_encodeMode (hi p : BitVec 4) : (encodeMode hi p).extractLsb' 0 4 = p :=
  (BitVec.extractLsb'_append_eq_of_add_le (Nat.le_refl 4)).trans BitVec.extractLsb'_eq_self

/-- The SMODE row of a protocol nibble, in the tabled codes. -/
def modeRow (n : SockId) (hi p : BitVec 4) : Instr :=
  if p = 1 then .smodeTcp n hi
  else if p = 2 then .smodeUdp n hi
  else if p = 3 then .smodeIpraw n hi
  else if p = 4 then .smodeMacraw n hi
  else if p = 5 then .smodePppoe n hi
  else .smodeOther n hi p

theorem decodeSmode_tabled (n : SockId) (mode : Byte) :
    decodeSmode .tabled n mode = modeRow n (mode.extractLsb' 4 4) (mode.extractLsb' 0 4) := rfl

theorem decodeSmode_encodeMode (n : SockId) (hi p : BitVec 4) :
    decodeSmode .tabled n (encodeMode hi p) = modeRow n hi p := by
  rw [decodeSmode_tabled, extract_hi_encodeMode, extract_nibble_encodeMode]

theorem modeRow_other (n : SockId) (hi p : BitVec 4) (other : p ∉ [1, 2, 3, 4, 5]) :
    modeRow n hi p = .smodeOther n hi p := by
  simp only [List.mem_cons, List.not_mem_nil, or_false, not_or] at other
  simp only [modeRow, other, if_false]

/-! ## DHCPIN (R123, R124) -/

/-- Bytes 0 to 27 of the encoded frame. -/
def encodedStart (f : DhcpFrame) : List Byte :=
  [0x01, f.htype, f.hlen, 0] ++ quadBytes f.xid ++ [0, 0] ++ halfBytes f.flags ++ quadBytes f.ciaddr
    ++ List.replicate 12 0

/-- The server identifier option, if the frame has one. -/
def encodedServer : Option Quad → List Byte
  | some q => [0x36, 0x04] ++ quadBytes q
  | none => []

/-- Bytes 240 on: the options of the encoded frame. -/
def encodedOptions (f : DhcpFrame) : List Byte :=
  0x35 :: 0x01 :: ([f.msgtype] ++ (encodedServer f.serverId ++ [0xFF]))

theorem encodeDhcp_eq (f : DhcpFrame) :
    encodeDhcp f = encodedStart f ++ (f.chaddr ++ (List.replicate 192 0 ++ (Config.dhcpCookie ++ encodedOptions f))) := by
  unfold encodeDhcp encodedStart encodedOptions
  cases f.serverId <;> simp only [encodedServer, List.append_assoc, List.cons_append, List.nil_append]

theorem drop_encodeDhcp_chaddr (f : DhcpFrame) :
    (encodeDhcp f).drop 28 = f.chaddr ++ (List.replicate 192 0 ++ (Config.dhcpCookie ++ encodedOptions f)) := by
  rw [encodeDhcp_eq]
  rfl

/-- The fixed fields ahead of the hardware address, as a parse reads them. -/
theorem parsed_encodeDhcp_start (f : DhcpFrame) :
    (encodeDhcp f).getD 1 0 = f.htype ∧ (encodeDhcp f).getD 2 0 = f.hlen ∧ quadAt (encodeDhcp f) 4 = f.xid
      ∧ half ((encodeDhcp f).getD 10 0) ((encodeDhcp f).getD 11 0) = f.flags
      ∧ quadAt (encodeDhcp f) 12 = f.ciaddr := by
  rw [encodeDhcp_eq]
  exact ⟨rfl, rfl, rfl, half_hi_lo f.flags, rfl⟩

section
variable (f : DhcpFrame) (chaddr : f.chaddr.length = 16)
include chaddr

theorem drop_encodeDhcp_cookie : (encodeDhcp f).drop 236 = Config.dhcpCookie ++ encodedOptions f := by
  rw [show 236 = 28 + (16 + 192) from rfl, ← List.drop_drop, drop_encodeDhcp_chaddr f, ← List.drop_drop,
    List.drop_left' chaddr]
  exact List.drop_left' List.length_replicate

theorem drop_encodeDhcp_options : (encodeDhcp f).drop 240 = encodedOptions f := by
  rw [show 240 = 236 + 4 from rfl, ← List.drop_drop, drop_encodeDhcp_cookie f chaddr]
  rfl

theorem length_encodeDhcp : (encodeDhcp f).length = 244 + (encodedServer f.serverId).length := by
  rw [encodeDhcp_eq]
  simp only [List.length_append, List.length_replicate, chaddr, encodedOptions, List.length_cons, List.length_nil]
  have start : (encodedStart f).length = 28 := rfl
  have cookie : Config.dhcpCookie.length = 4 := rfl
  omega

theorem dhcpOption_encodeDhcp_type : dhcpOption (encodeDhcp f) 0x35 = some [f.msgtype] := by
  rw [dhcpOption, length_encodeDhcp f chaddr, show Config.dhcpMinLen = 240 from rfl, drop_encodeDhcp_options f chaddr,
    show 244 + (encodedServer f.serverId).length = (243 + (encodedServer f.serverId).length) + 1 by omega]
  exact scanOption_found 0x35 0x01 _ [f.msgtype] _ rfl (by decide) (by decide)

theorem dhcpOption_encodeDhcp_server : dhcpOption (encodeDhcp f) 0x36 = f.serverId.map quadBytes := by
  rw [dhcpOption, length_encodeDhcp f chaddr, show Config.dhcpMinLen = 240 from rfl, drop_encodeDhcp_options f chaddr,
    show 244 + (encodedServer f.serverId).length = (242 + (encodedServer f.serverId).length) + 1 + 1 by omega]
  have skip := scanOption_skip 0x36 0x35 0x01 (242 + (encodedServer f.serverId).length + 1) [f.msgtype]
    (encodedServer f.serverId ++ [0xFF]) rfl (by decide) (by decide) (by decide)
  refine skip.trans ?_
  cases f.serverId with
  | none => rfl
  | some q => exact scanOption_found 0x36 0x04 _ (quadBytes q) [0xFF] rfl (by decide) (by decide)

/-- R302: a parse finds the fields of the frame. -/
theorem parseDhcp_encodeDhcp : parseDhcp (encodeDhcp f) = some f := by
  have long : ¬ (encodeDhcp f).length < Config.dhcpMinLen := by
    rw [length_encodeDhcp f chaddr, Config.dhcpMinLen]
    omega
  have cookie : ((encodeDhcp f).drop 236).take 4 = Config.dhcpCookie := by
    rw [drop_encodeDhcp_cookie f chaddr]
    rfl
  have hardware : ((encodeDhcp f).drop 28).take 16 = f.chaddr := by
    rw [drop_encodeDhcp_chaddr f]
    exact List.take_left' chaddr
  obtain ⟨htype, hlen, xid, flags, ciaddr⟩ := parsed_encodeDhcp_start f
  rw [parseDhcp, if_neg long, if_neg (not_not.mpr cookie), dhcpOption_encodeDhcp_type f chaddr,
    dhcpOption_encodeDhcp_server f chaddr, hardware, htype, hlen, xid, flags, ciaddr]
  obtain ⟨_, _, _, _, _, _, _, serverId⟩ := f
  cases serverId <;> rfl

theorem decodeDhcp_encodeDhcp (n : SockId) :
    decodeDhcp n (encodeDhcp f) =
      if f.msgtype = Config.dhcpDiscover then .dhcpDiscover n f
      else if f.msgtype = Config.dhcpRequest then .dhcpRequest n f
      else .dhcpOther n f := by
  rw [decodeDhcp, parseDhcp_encodeDhcp f chaddr]

end

theorem decodeDhcp_invalid (n : SockId) (data : List Byte) (invalid : (parseDhcp data).isNone = true) :
    decodeDhcp n data = .dhcpInvalid n data := by
  rw [decodeDhcp, Option.isNone_iff_eq_none.mp invalid]

/-! ## FCMD (R125, 47_firmware_facade.md R362) -/

/-- The count of F_WRBYTES, low byte first, is that of its data. -/
theorem decodeFcmd_wrbytes (data : List Byte) (lt : data.length < 65536) :
    decodeFcmd .tabled (0x00 :: loByte (BitVec.ofNat 16 data.length) :: hiByte (BitVec.ofNat 16 data.length) :: data) =
      .ok (.fWrbytes data) := by
  have count : data.length = (half (hiByte (BitVec.ofNat 16 data.length)) (loByte (BitVec.ofNat 16 data.length))).toNat := by
    rw [half_hi_lo, BitVec.toNat_ofNat, Nat.mod_eq_of_lt lt]
  exact if_pos count

theorem decodeFcmd_rdbytes (w : Half) : decodeFcmd .tabled [0x01, loByte w, hiByte w] = .ok (.fRdbytes w) :=
  congrArg (fun v => Except.ok (Instr.fRdbytes v)) (half_hi_lo w)

theorem decodeFcmd_setaddr (w : Half) : decodeFcmd .tabled [0x02, loByte w, hiByte w] = .ok (.fSetaddr w) :=
  congrArg (fun v => Except.ok (Instr.fSetaddr v)) (half_hi_lo w)

theorem decodeFcmd_unknown (opcode : Byte) (unknown : (!Config.Opcodes.tabled.all.contains opcode) = true) :
    decodeFcmd .tabled [opcode] = .ok (.fUnknown opcode) := by
  simp only [Config.Opcodes.all, Bool.not_eq_true', List.contains_eq_mem, decide_eq_false_iff_not,
    List.mem_cons, List.not_mem_nil, or_false, not_or] at unknown
  simp [decodeFcmd, decodeCommand, argCount, unknown]

/-! ## Every format -/

/-- Settles O54, format by format. -/
theorem decodeOfEncodeIsIdentity : Obligations.DecodeOfEncodeIsIdentity := by
  rintro c i ⟨map, codes, ops⟩ wf
  cases i with
  | rd addr => exact congrArg Except.ok (decodeBus_read c.map addr 0)
  | wr addr data => exact congrArg Except.ok (decodeBus_write_generic c.map addr data wf)
  | wrCMr data | wrCIr data =>
    simp only [encode, decode, decodeBus_write, map]
    rfl
  | wrSnCr n d | wrSnIr n d | wrSnSr n d | wrSnTxWrLo n d | wrSnRxRdLo n d =>
    simp only [encode, encodeSockWrite, decode, map]
    exact congrArg Except.ok (decodeBus_sockWrite n _ d (by decide))
  | scmdNone n | scmdOpen n | scmdListen n | scmdConnect n | scmdDiscon n | scmdClose n | scmdSend n | scmdSendMac n
  | scmdSendKeep n | scmdRecv n =>
    simp only [encode, decode, codes]
    rfl
  | scmdUnrecognised n code =>
    simp only [Instr.wf, codes] at wf
    simp only [encode, decode, codes, decodeScmd_unrecognised n code wf]
  | smodeTcp n hi | smodeUdp n hi | smodeIpraw n hi | smodeMacraw n hi | smodePppoe n hi =>
    simp only [encode, decode, codes, decodeSmode_encodeMode]
    rfl
  | smodeOther n hi p =>
    simp only [Instr.wf, codes] at wf
    rw [otherNibble, Bool.not_eq_true', List.contains_eq_mem, decide_eq_false_iff_not] at wf
    simp only [encode, decode, codes, decodeSmode_encodeMode, modeRow_other n hi p wf]
  | dhcpDiscover n f =>
    obtain ⟨chaddr, type⟩ := Bool.and_eq_true_iff.mp wf
    rw [encode, decode, decodeDhcp_encodeDhcp f (eq_of_beq chaddr), if_pos (eq_of_beq type)]
  | dhcpRequest n f =>
    obtain ⟨chaddr, type⟩ := Bool.and_eq_true_iff.mp wf
    rw [encode, decode, decodeDhcp_encodeDhcp f (eq_of_beq chaddr), eq_of_beq type]
    rfl
  | dhcpOther n f =>
    obtain ⟨rest, notRequest⟩ := Bool.and_eq_true_iff.mp wf
    obtain ⟨chaddr, notDiscover⟩ := Bool.and_eq_true_iff.mp rest
    rw [encode, decode, decodeDhcp_encodeDhcp f (eq_of_beq chaddr), if_neg (bne_iff_ne.mp notDiscover),
      if_neg (bne_iff_ne.mp notRequest)]
  | dhcpInvalid n data => exact congrArg Except.ok (decodeDhcp_invalid n data wf)
  | icmpEchoRequest n payload => exact congrArg Except.ok (if_pos wf)
  | icmpOther n proto payload => exact congrArg Except.ok (if_neg (by simpa [Instr.wf] using wf))
  | fWrbytes data =>
    simp only [encode, decode, ops]
    exact decodeFcmd_wrbytes data (of_decide_eq_true wf)
  | fRdbytes w =>
    simp only [encode, decode, ops]
    exact decodeFcmd_rdbytes w
  | fSetaddr w =>
    simp only [encode, decode, ops]
    exact decodeFcmd_setaddr w
  | fUnknown opcode =>
    simp only [Instr.wf, ops] at wf
    simp only [encode, decode, ops]
    exact decodeFcmd_unknown opcode wf
  | fGetaddr | fRdtimer | fWrip slot ip | fRdip slot | fPortno | fSwver | fHwver | fLink | fId | fErrcnt =>
    simp only [encode, decode, ops]
    rfl
  | _ => rfl

/-- Settles O55: the decoder runs on ten closed units. -/
theorem sampleUnitsDecode : Obligations.SampleUnitsDecode := by
  refine ⟨?_, ?_, ?_, ?_, ?_, ?_, ?_, ?_, ?_, ?_⟩ <;> decide +kernel

end Sys2Proof.Machine
end

section
/-! SUPPORT. 43_engines.md R240 to R246: what the completions of a bind, a listen, a connect and a send leave. -/
namespace Sys2Proof.Machine

open Sys2Proof

/-! ## The shape of a completion (R240) -/

/-- What a completion may change beside a record and its command byte: requests made, tokens handed out, pulses of
`notice`, free values used. -/
def State.charged (s : State) (reqs : List NetReq) (handles pulses frees : Nat) : State :=
  { s with
    netLog := s.netLog ++ reqs, nextHandle := s.nextHandle + handles, notices := s.notices + pulses
    freeUsed := s.freeUsed + frees }

@[simp] theorem State.charged_sock (s : State) (reqs : List NetReq) (handles pulses frees : Nat) (m : SockId) :
    (s.charged reqs handles pulses frees).sock m = s.sock m := rfl

/-- A completion that charges the state, replaces its socket's record and clears its command byte. -/
theorem engineEffect_charged (n : SockId) (k : Sock) (reqs : List NetReq) (handles pulses frees : Nat) (s : State) :
    EngineEffect n k reqs handles pulses frees s
      (((s.charged reqs handles pulses frees).setSock n k).setCr n 0x00) where
  record := by simp
  otherRecords m other := by
    rw [State.setCr_sock, State.sock_setSock, if_neg other]
    rfl
  command := (State.load_setCr _ n 0x00 _).trans (if_pos rfl)
  bytes a other := (State.load_setCr _ n 0x00 a).trans (if_neg other)
  rest := rfl

/-- The last line of every completion, after its record was written. -/
theorem State.finishOp_setSock (s : State) (n : SockId) (k : Sock) :
    (s.setSock n k).finishOp n = (s.setSock n { k with op := .none }).setCr n 0x00 := by
  simp only [State.finishOp, State.setOp, State.setSock_setSock, State.sock_setSock_same]

theorem State.raiseInt_setSock (s : State) (n : SockId) (k : Sock) (b : Byte) :
    (s.setSock n k).raiseInt n b = s.setSock n { k with ir := k.ir ||| b } := by
  simp only [State.raiseInt, raisedBits, State.setSock_setSock, State.sock_setSock_same]

/-- The record of a socket whose operation failed (R243 to R245). -/
def Sock.timedOut (k : Sock) (intTimeout : Byte) : Sock := { k with ir := k.ir ||| intTimeout, op := .none }

theorem State.finishOp_raiseInt (s : State) (n : SockId) (b : Byte) :
    (s.raiseInt n b).finishOp n = (s.setSock n ((s.sock n).timedOut b)).setCr n 0x00 :=
  s.finishOp_setSock n _

/-! ## Bind (R243) -/

/-- The request of a bind. -/
def State.bindRequest (s : State) (n : SockId) : NetReq := .openUdp (s.sPort n) (s.sGroup n) (s.sTtl n)

/-- The record of a bound socket. -/
def Sock.bound (k : Sock) (h : Handle) : Sock := { k with conn := some h, recvEnabled := true, op := .none }

theorem bindDone_ok (n : SockId) (s : State) :
    bindDone n .ok s =
      ((s.charged [s.bindRequest n] 1 0 0).setSock n ((s.sock n).bound s.nextHandle)).setCr n 0x00 :=
  State.finishOp_setSock _ n _

theorem bindDone_fail (n : SockId) (s : State) :
    bindDone n .fail s =
      ((s.charged [s.bindRequest n] 0 0 0).setSock n ((s.sock n).timedOut s.cfg.codes.intTimeout)).setCr n 0x00 :=
  State.finishOp_setSock _ n _

theorem bindDone_failPermission (n : SockId) (s : State) :
    bindDone n .failPermission s =
      ((s.charged [s.bindRequest n] 0 1 0).setSock n ((s.sock n).timedOut s.cfg.codes.intTimeout)).setCr n 0x00 :=
  State.finishOp_setSock ((s.ask (s.bindRequest n)).pulseNotice) n _

theorem exec_ctlUdpbindDone_binding (n : SockId) (r : BindAnswer) (s : State) (alive : s.alive = true)
    (binding : (s.sock n).op = .udpBind) : exec (.ctlUdpbindDone n r) s = .next (bindDone n r s) := by
  show execCtlUdpbindDone n r s = _
  rw [execCtlUdpbindDone, alive, binding]
  rfl

/-- Settles O26: each answer makes the one request and ends in one record. -/
theorem bindCompletes : Obligations.BindCompletes := by
  intro n r s alive binding
  refine ⟨_, exec_ctlUdpbindDone_binding n r s alive binding, ?_⟩
  cases r with
  | ok => rw [bindDone_ok]; exact engineEffect_charged n _ _ 1 0 0 s
  | fail => rw [bindDone_fail]; exact engineEffect_charged n _ _ 0 0 0 s
  | failPermission => rw [bindDone_failPermission]; exact engineEffect_charged n _ _ 0 1 0 s

/-! ## Listen (R244) -/

/-- The request of a listen. -/
def State.listenRequest (s : State) (n : SockId) (backlog : Nat) : NetReq := .listenTcp (s.sPort n) backlog

/-- Does a listen hold a new listening endpoint (log 16)? -/
def Sock.keepsNew (k : Sock) (keeps : Bool) : Bool := keeps && k.lsn.isNone

/-- The record with the listening endpoint `h` where the socket holds none and the network side keeps it. -/
def Sock.listening (k : Sock) (keeps : Bool) (h : Handle) : Sock :=
  { k with lsn := if k.keepsNew keeps = true then some h else k.lsn }

/-- How many tokens a listen hands out for its endpoint. -/
def Sock.listenTokens (k : Sock) (keeps : Bool) : Nat := if k.keepsNew keeps = true then 1 else 0

/-- The record of an established connection (R244, R245). -/
def Sock.established (k : Sock) (h : Handle) (intCon : Byte) : Sock :=
  { k with
    conn := some h, status := .established, recvEnabled := true
    ir := k.ir ||| intCon, op := .none }

theorem State.keepListener_eq (s : State) (n : SockId) (keeps : Bool) :
    s.keepListener n keeps =
      { s with nextHandle := s.nextHandle + (s.sock n).listenTokens keeps }.setSock n
        ((s.sock n).listening keeps s.nextHandle) := by
  unfold State.keepListener Sock.listening Sock.listenTokens Sock.keepsNew
  split
  case isTrue => rfl
  case isFalse => exact (s.setSock_sock n).symm

theorem State.attach_eq (s : State) (n : SockId) :
    s.attach n = s.takeHandle.setSock n { s.sock n with conn := some s.nextHandle, recvEnabled := true } := rfl

theorem State.finishOp_establish (s : State) (n : SockId) :
    (s.establish n).finishOp n =
      (s.takeHandle.setSock n ((s.sock n).established s.nextHandle s.cfg.codes.intCon)).setCr n 0x00 := by
  simp only [State.establish, State.attach_eq, State.setStatus, State.setSock_setSock, State.sock_setSock_same,
    State.raiseInt_setSock, State.finishOp_setSock]
  rfl

/-- A listen before its answer: request made, endpoint held. -/
theorem keepListener_ask_eq (s : State) (n : SockId) (draw : ListenDraw) :
    (s.ask (s.listenRequest n draw.backlog)).keepListener n draw.keeps =
      (s.charged [s.listenRequest n draw.backlog] ((s.sock n).listenTokens draw.keeps) 0 0).setSock n
        ((s.sock n).listening draw.keeps s.nextHandle) :=
  State.keepListener_eq _ n draw.keeps

theorem listenDone_accepted (n : SockId) (draw : ListenDraw) (s : State) :
    let tokens := (s.sock n).listenTokens draw.keeps
    listenDone n .accepted draw s =
      ((s.charged [s.listenRequest n draw.backlog] (tokens + 1) 0 0).setSock n
        (((s.sock n).listening draw.keeps s.nextHandle).established (s.nextHandle + tokens)
          s.cfg.codes.intCon)).setCr n 0x00 := by
  intro tokens
  calc listenDone n .accepted draw s
      = (((s.ask (s.listenRequest n draw.backlog)).keepListener n draw.keeps).establish n).finishOp n := rfl
    _ = _ := by
        rw [keepListener_ask_eq, State.finishOp_establish, State.sock_setSock_same]
        exact congrArg (State.setCr · n 0x00) (State.setSock_setSock
          (s.charged [s.listenRequest n draw.backlog] (tokens + 1) 0 0) n _ _)

theorem listenDone_fail (n : SockId) (draw : ListenDraw) (s : State) :
    listenDone n .fail draw s =
      ((s.charged [s.listenRequest n draw.backlog] ((s.sock n).listenTokens draw.keeps) 0 0).setSock n
        (((s.sock n).listening draw.keeps s.nextHandle).timedOut s.cfg.codes.intTimeout)).setCr n 0x00 := by
  calc listenDone n .fail draw s
      = (((s.ask (s.listenRequest n draw.backlog)).keepListener n draw.keeps).raiseInt n
          s.cfg.codes.intTimeout).finishOp n := rfl
    _ = _ := by
        rw [keepListener_ask_eq, State.raiseInt_setSock, State.finishOp_setSock]
        rfl

theorem listenDone_failPermission (n : SockId) (draw : ListenDraw) (s : State) :
    listenDone n .failPermission draw s =
      ((s.charged [s.listenRequest n draw.backlog] ((s.sock n).listenTokens draw.keeps) 1 0).setSock n
        (((s.sock n).listening draw.keeps s.nextHandle).timedOut s.cfg.codes.intTimeout)).setCr n 0x00 := by
  calc listenDone n .failPermission draw s
      = (((s.ask (s.listenRequest n draw.backlog)).keepListener n draw.keeps).raiseInt n
          s.cfg.codes.intTimeout).pulseNotice.finishOp n := rfl
    _ = ((s.charged [s.listenRequest n draw.backlog] ((s.sock n).listenTokens draw.keeps) 1 0).setSock n
          { (s.sock n).listening draw.keeps s.nextHandle with
            ir := ((s.sock n).listening draw.keeps s.nextHandle).ir ||| s.cfg.codes.intTimeout }).finishOp n := by
        rw [keepListener_ask_eq, State.raiseInt_setSock]
        rfl
    _ = _ := State.finishOp_setSock _ n _

theorem exec_ctlListenDone_listening (n : SockId) (r : AcceptAnswer) (draw : ListenDraw) (s : State)
    (alive : s.alive = true) (listening : (s.sock n).op = .listen) :
    exec (.ctlListenDone n r draw) s = .next (listenDone n r draw s) := by
  show execCtlListenDone n r draw s = _
  rw [execCtlListenDone, alive, listening]
  rfl

/-- Settles O27: the endpoint is held before the answer counts, so its token is the first. -/
theorem listenCompletes : Obligations.ListenCompletes := by
  intro n r draw s alive listening
  refine ⟨_, exec_ctlListenDone_listening n r draw s alive listening, ?_⟩
  cases r with
  | accepted => rw [listenDone_accepted]; exact engineEffect_charged n _ _ _ 0 0 s
  | fail => rw [listenDone_fail]; exact engineEffect_charged n _ _ _ 0 0 s
  | failPermission => rw [listenDone_failPermission]; exact engineEffect_charged n _ _ _ 1 0 s

/-! ## Connect (R245) -/

/-- The request of a connect. -/
def State.connectRequest (s : State) (n : SockId) (ms : Nat) : NetReq :=
  .connectTcp (s.sDipr n) (s.sDport n) (s.sPort n) ms

/-- `self_loopback(n)` (44_network_port.md R285). -/
theorem State.selfLoopback_iff (s : State) (n : SockId) :
    s.selfLoopback n = true ↔ s.sDipr n = s.cSipr ∧ s.sDport n = s.sPort n ∧ s.sDport n ∉ s.released := by
  simp [State.selfLoopback, and_assoc]

theorem connectDone_loopback (n : SockId) (ms : Nat) (r : ConnectAnswer) (s : State)
    (loopback : s.selfLoopback n = true) :
    connectDone n ms r s =
      ((s.charged [] 0 0 0).setSock n ((s.sock n).timedOut s.cfg.codes.intTimeout)).setCr n 0x00 := by
  have uncharged : s.charged [] 0 0 0 = s := by simp [State.charged]
  rw [connectDone, if_pos loopback, uncharged, State.finishOp_raiseInt]

theorem connectDone_connected (n : SockId) (ms : Nat) (s : State) (outside : ¬ s.selfLoopback n = true) :
    connectDone n ms .connected s =
      ((s.charged [s.connectRequest n ms] 1 0 0).setSock n
        ((s.sock n).established s.nextHandle s.cfg.codes.intCon)).setCr n 0x00 := by
  rw [connectDone, if_neg outside]
  exact State.finishOp_establish (s.ask (s.connectRequest n ms)) n

theorem connectDone_fail (n : SockId) (ms : Nat) (s : State) (outside : ¬ s.selfLoopback n = true) :
    connectDone n ms .fail s =
      ((s.charged [s.connectRequest n ms] 0 0 0).setSock n
        ((s.sock n).timedOut s.cfg.codes.intTimeout)).setCr n 0x00 := by
  rw [connectDone, if_neg outside]
  exact State.finishOp_raiseInt (s.ask (s.connectRequest n ms)) n _

theorem exec_ctlConnectDone_connecting (n : SockId) (r : ConnectAnswer) (ms : Nat) (s : State)
    (alive : s.alive = true) (connecting : (s.sock n).op = .connect ms) :
    exec (.ctlConnectDone n r) s = .next (connectDone n ms r s) := by
  show execCtlConnectDone n r s = _
  rw [execCtlConnectDone, connecting]
  exact congrArg Host.Outcome.next (if_pos alive)

/-- Settles O28: a self-loopback makes no request and cannot be answered. -/
theorem connectCompletes : Obligations.ConnectCompletes := by
  intro n r ms s alive connecting
  refine ⟨_, exec_ctlConnectDone_connecting n r ms s alive connecting, ?_⟩
  have loopback := s.selfLoopback_iff n
  split
  case isTrue inside =>
    rw [connectDone_loopback n ms r s (loopback.mpr inside)]
    exact engineEffect_charged n _ [] 0 0 0 s
  case isFalse outside =>
    cases r with
    | connected =>
      rw [connectDone_connected n ms s (mt loopback.mp outside)]
      exact engineEffect_charged n _ _ 1 0 0 s
    | fail =>
      rw [connectDone_fail n ms s (mt loopback.mp outside)]
      exact engineEffect_charged n _ _ 0 0 0 s

/-! ## Send (R246) -/

/-- How many free values a SEND uses (log 8). -/
def State.sendFrees (s : State) (n : SockId) : Nat := if s.txUsed n ≤ s.txSize n then 0 else s.txUsed n

theorem State.countFree_eq (s : State) (n : SockId) : s.countFree n = s.charged [] 0 0 (s.sendFrees n) := by
  unfold State.countFree State.sendFrees State.charged
  rw [List.append_nil]
  split <;> rfl

/-- The bytes between the TX cursors, in order, where the ring holds them (41_ring_buffers.md R187). -/
theorem State.drained_source (s : State) (n : SockId) :
    (s.drained n).length = s.txUsed n
      ∧ (s.txUsed n ≤ s.txSize n → ∀ i, (h : i < (s.drained n).length) →
          (s.drained n)[i] = s.load (s.txBase n + ((s.sock n).txRd.toNat + i) % s.txSize n)) := by
  unfold State.drained
  split
  case isTrue => exact ⟨by simp [ringRead], fun _ i h => by simp [ringRead, ringAddr, State.load]⟩
  case isFalse overrun => exact ⟨length_freeBytes _ _, fun fits => absurd fits overrun⟩

/-- The record of a socket whose SEND ended, with the bit `int` raised. -/
def Sock.drainedWith (k : Sock) (int : Byte) : Sock := { k with txRd := k.txWr, ir := k.ir ||| int, op := .none }

/-- What remains of a SEND once its bytes are on their way (R246). -/
def sendEnd (n : SockId) (keep : Bool) (codes : Config.Codes) (t : State) : SendFate → State
  | .sent => ((t.releaseTx n).raiseInt n codes.intSendOk).finishOp n
  | .failedInside => ((t.releaseTx n).raiseInt n codes.intTimeout).finishOp n
  | .failedOutside =>
    let v := (t.releaseTx n).raiseInt n codes.intTimeout
    (if keep then v else v.dropConn n).finishOp n

theorem sendDone_eq (n : SockId) (ok keep : Bool) (s : State) :
    sendDone n ok keep s =
      sendEnd n keep s.cfg.codes (sendRoute n (s.drained n) ok (s.charged [] 0 0 (s.sendFrees n))).1
        (sendRoute n (s.drained n) ok (s.charged [] 0 0 (s.sendFrees n))).2 := by
  rw [sendDone, s.countFree_eq]
  obtain ⟨t, fate⟩ := sendRoute n (s.drained n) ok (s.charged [] 0 0 (s.sendFrees n))
  cases fate <;> rfl

theorem finishOp_raiseInt_releaseTx (t : State) (n : SockId) (b : Byte) :
    ((t.releaseTx n).raiseInt n b).finishOp n = (t.setSock n ((t.sock n).drainedWith b)).setCr n 0x00 := by
  rw [State.raiseInt_releaseTx, State.finishOp_setSock]
  rfl

theorem sendEnd_sent (n : SockId) (keep : Bool) (codes : Config.Codes) (t : State) :
    sendEnd n keep codes t .sent = (t.setSock n ((t.sock n).drainedWith codes.intSendOk)).setCr n 0x00 :=
  finishOp_raiseInt_releaseTx t n _

theorem sendEnd_failedInside (n : SockId) (keep : Bool) (codes : Config.Codes) (t : State) :
    sendEnd n keep codes t .failedInside = (t.setSock n ((t.sock n).drainedWith codes.intTimeout)).setCr n 0x00 :=
  finishOp_raiseInt_releaseTx t n _

theorem sendEnd_kept (n : SockId) (codes : Config.Codes) (t : State) :
    sendEnd n true codes t .failedOutside = (t.setSock n ((t.sock n).drainedWith codes.intTimeout)).setCr n 0x00 :=
  finishOp_raiseInt_releaseTx t n _

theorem State.dropConn_setSock (s : State) (n : SockId) (k : Sock) (h : Handle) (conn : k.conn = some h) :
    (s.setSock n k).dropConn n = (s.ask (.close h)).setSock n { k with conn := none } := by
  have record : ((s.setSock n k).ask (.close h)).sock n = k := s.sock_setSock_same n k
  simp only [State.dropConn, State.sock_setSock_same, conn, State.closeHandle_some, record]
  exact State.setSock_setSock (s.ask (.close h)) n k _

theorem sendEnd_dropped (n : SockId) (codes : Config.Codes) (t : State) (h : Handle) (conn : (t.sock n).conn = some h) :
    sendEnd n false codes t .failedOutside =
      ((t.ask (.close h)).setSock n { (t.sock n).drainedWith codes.intTimeout with conn := none }).setCr n 0x00 := by
  have released := State.dropConn_setSock t n
    { t.sock n with txRd := (t.sock n).txWr, ir := (t.sock n).ir ||| codes.intTimeout } h conn
  rw [← State.raiseInt_releaseTx] at released
  calc sendEnd n false codes t .failedOutside
      = (((t.releaseTx n).raiseInt n codes.intTimeout).dropConn n).finishOp n := rfl
    _ = _ := by
        rw [released, State.finishOp_setSock]
        rfl

/-- The guard of a completed SEND: in flight, in a status it transfers in. -/
theorem exec_ctlSendDone_sending (n : SockId) (ok keep : Bool) (s : State) (alive : s.alive = true)
    (sending : (s.sock n).op = .send) (status : transfers (s.sock n).status = true) :
    exec (.ctlSendDone n ok keep) s = .next (sendDone n ok keep s) := by
  show execCtlSendDone n ok keep s = _
  rw [execCtlSendDone, alive, sending, status]
  rfl

/-- A SEND that fails without a request. -/
theorem engineEffect_sendInside (n : SockId) (keep : Bool) (s : State) :
    EngineEffect n ((s.sock n).drainedWith s.cfg.codes.intTimeout) [] 0 0 (s.sendFrees n) s
      (sendEnd n keep s.cfg.codes (s.charged [] 0 0 (s.sendFrees n)) .failedInside) := by
  rw [sendEnd_failedInside]
  exact engineEffect_charged n _ [] 0 0 _ s

/-- A SEND handed to the network side by the request `r`, for each answer. -/
theorem engineEffect_sendOutside (n : SockId) (ok keep : Bool) (s : State) (r : NetReq) (h : Handle)
    (conn : (s.sock n).conn = some h) :
    let t := sendEnd n keep s.cfg.codes ((s.charged [] 0 0 (s.sendFrees n)).ask r) (sendAnswer ok)
    let timedOut := (s.sock n).drainedWith s.cfg.codes.intTimeout
    if ok = true then
      EngineEffect n ((s.sock n).drainedWith s.cfg.codes.intSendOk) [r] 0 0 (s.sendFrees n) s t
    else if keep = true then EngineEffect n timedOut [r] 0 0 (s.sendFrees n) s t
    else EngineEffect n { timedOut with conn := none } [r, .close h] 0 0 (s.sendFrees n) s t := by
  have asked : (s.charged [] 0 0 (s.sendFrees n)).ask r = s.charged [r] 0 0 (s.sendFrees n) := by
    simp [State.ask, State.charged]
  have askedTwice : (s.charged [r] 0 0 (s.sendFrees n)).ask (.close h) =
      s.charged [r, .close h] 0 0 (s.sendFrees n) := by
    simp [State.ask, State.charged]
  rw [asked]
  cases ok with
  | true =>
    rw [if_pos rfl, sendAnswer, if_pos rfl, sendEnd_sent]
    exact engineEffect_charged n _ [r] 0 0 _ s
  | false =>
    rw [if_neg Bool.false_ne_true, sendAnswer, if_neg Bool.false_ne_true]
    cases keep with
    | true =>
      rw [if_pos rfl, sendEnd_kept]
      exact engineEffect_charged n _ [r] 0 0 _ s
    | false =>
      rw [if_neg Bool.false_ne_true, sendEnd_dropped n _ (s.charged [r] 0 0 (s.sendFrees n)) h conn, askedTwice]
      exact engineEffect_charged n _ [r, .close h] 0 0 _ s

/-! ## A SEND to the network side -/

/-- A request to the network side under the connection handle, a failure inside the block without one. -/
def handOn (s : State) (req : Handle → NetReq) (ok : Bool) : Option Handle → State × SendFate
  | none => (s, .failedInside)
  | some h => (s.ask (req h), sendAnswer ok)

theorem sendRoute_established (n : SockId) (data : List Byte) (ok : Bool) (s : State)
    (established : (s.sock n).status = .established) :
    sendRoute n data ok s = handOn s (.sendStream · data) ok (s.sock n).conn := by
  simp only [sendRoute, if_pos established]
  cases (s.sock n).conn <;> rfl

/-- Settles O29: one stream write, or none without a handle. -/
theorem tcpSendCompletes : Obligations.TcpSendCompletes := by
  intro n ok keep s alive sending established done timedOut used frees
  have status : transfers (s.sock n).status = true := by rw [established]; rfl
  refine ⟨_, s.drained n, exec_ctlSendDone_sending n ok keep s alive sending status, s.drained_source n |>.1,
    s.drained_source n |>.2, ?_⟩
  rw [sendDone_eq, sendRoute_established n _ ok (s.charged [] 0 0 (s.sendFrees n)) established,
    State.charged_sock]
  cases conn : (s.sock n).conn with
  | none => exact engineEffect_sendInside n keep s
  | some h => exact engineEffect_sendOutside n ok keep s _ h conn

theorem sendRoute_udp (n : SockId) (data : List Byte) (ok : Bool) (s : State) (udp : (s.sock n).status = .udp)
    (port : s.sDport n ≠ s.cfg.dhcpServerPort) :
    sendRoute n data ok s =
      if s.selfLoopback n = true then (s, .failedInside)
      else handOn s (.sendDatagram · (s.sDipr n) (s.sDport n) data) ok (s.sock n).conn := by
  have notTcp : ¬ (s.sock n).status = .established := by simp [udp]
  simp only [sendRoute, if_neg notTcp, if_pos udp, if_neg port]
  cases (s.sock n).conn <;> rfl

/-- Settles O30: one datagram, or none for a self-loopback or without a handle. -/
theorem udpSendCompletes : Obligations.UdpSendCompletes := by
  intro n ok keep s alive sending udp m dip dport port done timedOut used frees
  have status : transfers (s.sock n).status = true := by rw [udp]; rfl
  refine ⟨_, s.drained n, exec_ctlSendDone_sending n ok keep s alive sending status, s.drained_source n |>.1,
    s.drained_source n |>.2, ?_⟩
  have loopback := s.selfLoopback_iff n
  rw [sendDone_eq, sendRoute_udp n _ ok (s.charged [] 0 0 (s.sendFrees n)) udp port,
    State.charged_sock]
  split
  case isTrue inside =>
    rw [if_pos (c := (s.charged [] 0 0 (s.sendFrees n)).selfLoopback n = true) (loopback.mpr inside)]
    exact engineEffect_sendInside n keep s
  case isFalse outside =>
    rw [if_neg (c := (s.charged [] 0 0 (s.sendFrees n)).selfLoopback n = true) (mt loopback.mp outside)]
    cases conn : (s.sock n).conn with
    | none => exact engineEffect_sendInside n keep s
    | some h => exact engineEffect_sendOutside n ok keep s _ h conn

/-! ## A SEND inside the block -/

/-- A DHCP payload is input to the responder as an instruction of its own or inside a SEND (R301). -/
theorem exec_decodeDhcp (n : SockId) (data : List Byte) (s : State) (alive : s.alive = true) :
    exec (decodeDhcp n data) s = .next (dhcpInput n data s) := by
  unfold dhcpInput decodeDhcp
  cases parseDhcp data with
  | none => rfl
  | some f =>
    simp only
    split_ifs
    · exact exec_dhcpDiscover_alive n f s alive
    · exact exec_dhcpRequest_alive n f s alive
    · rfl

/-- An update and a rule that do not look at each other's fields. -/
def Commutes (u rule : State → State) : Prop := ∀ s, rule (u s) = u (rule s)

/-- A guarded rule, where the update does not touch the guard. -/
theorem Commutes.guarded {u g h : State → State} {p : State → Prop} [DecidablePred p] (blind : ∀ s, p (u s) ↔ p s)
    (hg : Commutes u g) (hh : Commutes u h) : Commutes u fun s => if p s then g s else h s := by
  intro s
  simp only [blind s, hg s, hh s]
  exact (apply_ite u _ _ _).symm

theorem discoverRule_charged (n : SockId) (f : DhcpFrame) (frees : Nat) :
    Commutes (State.charged · [] 0 0 frees) (discoverRule n f) :=
  .guarded (p := fun s => (s.isBroadcast (s.sDipr n) && slotFree s.dhcp s.now) = true) (fun _ => .rfl) (fun _ => rfl)
    (fun _ => rfl)

theorem requestRule_charged (n : SockId) (f : DhcpFrame) (frees : Nat) :
    Commutes (State.charged · [] 0 0 frees) (requestRule n f) := by
  intro s
  cases held : s.dhcp with
  | none =>
    exact (requestRule_noExchange n f (s.charged [] 0 0 frees) held).trans
      (congrArg (State.charged · [] 0 0 frees) (requestRule_noExchange n f s held).symm)
  | some x =>
    have before := requestRule_exchange n f s x held
    have after := requestRule_exchange n f (s.charged [] 0 0 frees) x held
    by_cases ok : requestMatches f x s.now = true
    · exact (after.trans (if_pos ok)).trans (congrArg (State.charged · [] 0 0 frees) (before.trans (if_pos ok)).symm)
    · exact (after.trans (if_neg ok)).trans (congrArg (State.charged · [] 0 0 frees) (before.trans (if_neg ok)).symm)

/-- The responder looks at nothing that a SEND has charged. -/
theorem dhcpInput_charged (n : SockId) (data : List Byte) (frees : Nat) :
    Commutes (State.charged · [] 0 0 frees) (dhcpInput n data) := by
  intro s
  unfold dhcpInput
  split
  · exact discoverRule_charged n _ frees s
  · exact requestRule_charged n _ frees s
  · rfl

theorem discoverRule_rest (n : SockId) (f : DhcpFrame) (s : State) :
    discoverRule n f s = { s with dhcp := (discoverRule n f s).dhcp } := by
  unfold discoverRule
  split <;> rfl

theorem requestRule_rest (n : SockId) (f : DhcpFrame) (s : State) :
    requestRule n f s = { s with dhcp := (requestRule n f s).dhcp } := by
  unfold requestRule
  split
  · rfl
  · split <;> rfl

/-- The responder changes the exchange only. -/
theorem dhcpInput_rest (n : SockId) (data : List Byte) (s : State) :
    dhcpInput n data s = { s with dhcp := (dhcpInput n data s).dhcp } := by
  unfold dhcpInput
  split
  · exact discoverRule_rest n _ s
  · exact requestRule_rest n _ s
  · rfl

theorem exec_decodeIcmp (n : SockId) (data : List Byte) (s : State) (alive : s.alive = true) :
    exec (decodeIcmp n (s.sProto n) data) s = .next (icmpInput n data s) := by
  unfold icmpInput decodeIcmp
  split
  · exact exec_icmpEchoRequest_alive n data s alive
  · rfl

theorem icmpInput_charged (n : SockId) (data : List Byte) (frees : Nat) :
    Commutes (State.charged · [] 0 0 frees) (icmpInput n data) := by
  intro s
  have payload : decodeIcmp n ((s.charged [] 0 0 frees).sProto n) data = decodeIcmp n (s.sProto n) data := rfl
  simp only [icmpInput, payload]
  split <;> rfl

/-- An ICMP payload changes the pings only. -/
theorem icmpInput_rest (n : SockId) (data : List Byte) (s : State) :
    icmpInput n data s = { s with pings := (icmpInput n data s).pings } := by
  unfold icmpInput
  split <;> rfl

theorem sendRoute_dhcp (n : SockId) (data : List Byte) (ok : Bool) (s : State) (udp : (s.sock n).status = .udp)
    (port : s.sDport n = s.cfg.dhcpServerPort) : sendRoute n data ok s = (dhcpInput n data s, .sent) := by
  have notTcp : ¬ (s.sock n).status = .established := by simp [udp]
  simp only [sendRoute, if_neg notTcp, if_pos udp, if_pos port]

theorem sendRoute_ipraw (n : SockId) (data : List Byte) (ok : Bool) (s : State) (ipraw : (s.sock n).status = .ipraw) :
    sendRoute n data ok s = (icmpInput n data s, .sent) := by
  have notTcp : ¬ (s.sock n).status = .established := by simp [ipraw]
  have notUdp : ¬ (s.sock n).status = .udp := by simp [ipraw]
  simp only [sendRoute, if_neg notTcp, if_neg notUdp]

theorem engineEffect_sendDhcp (n : SockId) (ok keep : Bool) (s : State) (udp : (s.sock n).status = .udp)
    (port : s.sDport n = s.cfg.dhcpServerPort) :
    EngineEffect n ((s.sock n).drainedWith s.cfg.codes.intSendOk) [] 0 0 (s.sendFrees n)
      { s with dhcp := (dhcpInput n (s.drained n) s).dhcp } (sendDone n ok keep s) := by
  rw [sendDone_eq, sendRoute_dhcp n _ ok (s.charged [] 0 0 (s.sendFrees n)) udp port, sendEnd_sent,
    dhcpInput_charged n _ _ s, dhcpInput_rest]
  exact engineEffect_charged n _ [] 0 0 _ { s with dhcp := (dhcpInput n (s.drained n) s).dhcp }

theorem engineEffect_sendIcmp (n : SockId) (ok keep : Bool) (s : State) (ipraw : (s.sock n).status = .ipraw) :
    EngineEffect n ((s.sock n).drainedWith s.cfg.codes.intSendOk) [] 0 0 (s.sendFrees n)
      { s with pings := (icmpInput n (s.drained n) s).pings } (sendDone n ok keep s) := by
  rw [sendDone_eq, sendRoute_ipraw n _ ok (s.charged [] 0 0 (s.sendFrees n)) ipraw, sendEnd_sent,
    icmpInput_charged n _ _ s, icmpInput_rest]
  exact engineEffect_charged n _ [] 0 0 _ { s with pings := (icmpInput n (s.drained n) s).pings }

/-- Settles O31: the payload is input to the rule that an instruction of its own would run. -/
theorem insideSendRunsItsPayload : Obligations.InsideSendRunsItsPayload := by
  intro n ok keep s alive sending m k used frees source
  refine ⟨fun udp port => ?_, fun ipraw => ?_⟩
  · have status : transfers (s.sock n).status = true := by rw [udp]; rfl
    exact ⟨_, _, s.drained n, exec_ctlSendDone_sending n ok keep s alive sending status, s.drained_source n,
      exec_decodeDhcp n _ s alive, engineEffect_sendDhcp n ok keep s udp port⟩
  · have status : transfers (s.sock n).status = true := by rw [ipraw]; rfl
    exact ⟨_, _, s.drained n, exec_ctlSendDone_sending n ok keep s alive sending status, s.drained_source n,
      exec_decodeIcmp n _ s alive, engineEffect_sendIcmp n ok keep s ipraw⟩

end Sys2Proof.Machine
end

section
/-! SUPPORT. 43_engines.md R249 to R253: what a receive from the network side leaves. -/
namespace Sys2Proof.Machine

open Sys2Proof

/-! ## The request (44_network_port.md R281) -/

/-- What the network side is asked for under the connection handle `h`. -/
def State.receiveRequest (s : State) (n : SockId) (h : Handle) : NetReq :=
  if (s.sock n).status = .udp then .recvDatagram h (s.rxFree n - Config.udpHdr) else .recvStream h

theorem State.askReceive_conn (s : State) (n : SockId) (h : Handle) (conn : (s.sock n).conn = some h) :
    s.askReceive n = s.ask (s.receiveRequest n h) := by
  simp only [State.askReceive, conn, State.receiveRequest]
  split <;> rfl

theorem State.receiveRequest_established (s : State) (n : SockId) (h : Handle)
    (established : (s.sock n).status = .established) : s.receiveRequest n h = .recvStream h :=
  if_neg (by simp [established])

theorem State.receiveRequest_udp (s : State) (n : SockId) (h : Handle) (udp : (s.sock n).status = .udp) :
    s.receiveRequest n h = .recvDatagram h (s.rxFree n - Config.udpHdr) :=
  if_pos udp

/-! ## Bytes that arrive (R249 to R251) -/

/-- A receive that was asked for. -/
theorem rxEffect_ask (n : SockId) (bytes : List Byte) (r : NetReq) (s : State) (fits : bytes.length ≤ s.rxSize n) :
    RxEffect n bytes [r] s ((s.ask r).rxCommit n bytes) := by
  have e := rxEffect_rxCommit n bytes (s.ask r) fits
  refine ⟨e.record, e.otherRecords, e.stored, e.bytesElsewhere, ?_⟩
  have rest := e.rest
  rwa [List.append_nil] at rest

theorem rxTcpRule_enabled (n : SockId) (avail : List Byte) (k : Nat) (s : State)
    (armed : s.armed n .established = true) (some : 1 ≤ k) (there : k ≤ avail.length) (room : k ≤ s.rxFree n) :
    rxTcpRule n avail k s = (s.askReceive n).rxCommit n (avail.take k) :=
  if_pos (by simp [armed, some, there, room])

/-- Settles O34: the guard leaves room for the bytes taken. -/
theorem tcpReceiveCommits : Obligations.TcpReceiveCommits := by
  intro n avail k h s alive enabled established conn some there room
  have armed : s.armed n .established = true := (s.armed_iff n _).mpr ⟨enabled, established, by simp [conn]⟩
  have fits : (avail.take k).length ≤ s.rxSize n := by
    rw [List.length_take]
    omega
  refine ⟨_, congrArg Host.Outcome.next (if_pos alive), ?_⟩
  rw [rxTcpRule_enabled n avail k s armed some there room, s.askReceive_conn n h conn,
    s.receiveRequest_established n h established]
  exact rxEffect_ask n _ _ s fits

theorem udpHeader_eq (ip : Quad) (port : Half) (k : Nat) :
    udpHeader ip port k =
      [ip.a, ip.b, ip.c, ip.d, hiByte port, loByte port, BitVec.ofNat 8 (k / 256), BitVec.ofNat 8 k] := by
  rw [udpHeader, halfBytes_ofNat]
  rfl

/-- The header and what of the payload the room holds (R251). -/
def datagram (ip : Quad) (port : Half) (payload : List Byte) (room : Nat) : List Byte :=
  udpHeader ip port (min payload.length (room - Config.udpHdr))
    ++ payload.take (min payload.length (room - Config.udpHdr))

/-- A datagram is cut to the room. -/
theorem length_datagram_le (ip : Quad) (port : Half) (payload : List Byte) (room : Nat)
    (header : Config.udpHdr ≤ room) : (datagram ip port payload room).length ≤ room := by
  have length : (udpHeader ip port (min payload.length (room - Config.udpHdr))).length = Config.udpHdr := rfl
  rw [datagram, List.length_append, length, List.length_take]
  omega

theorem rxUdpRule_enabled (n : SockId) (ip : Quad) (port : Half) (payload : List Byte) (s : State)
    (armed : s.armed n .udp = true) (room : Config.udpHdr ≤ s.rxFree n) :
    rxUdpRule n ip port payload s = (s.askReceive n).rxCommit n (datagram ip port payload (s.rxFree n)) :=
  if_pos (by simp [armed, room])

/-- Settles O35: header and payload are cut to the room together. -/
theorem udpReceiveCommits : Obligations.UdpReceiveCommits := by
  intro n ip port payload h s alive enabled udp conn free room k
  have armed : s.armed n .udp = true := (s.armed_iff n _).mpr ⟨enabled, udp, by simp [conn]⟩
  have fits : (datagram ip port payload (s.rxFree n)).length ≤ s.rxSize n :=
    (length_datagram_le ip port payload _ room).trans (Nat.sub_le _ _)
  refine ⟨_, congrArg Host.Outcome.next (if_pos alive), ?_⟩
  rw [rxUdpRule_enabled n ip port payload s armed room, s.askReceive_conn n h conn, s.receiveRequest_udp n h udp,
    ← udpHeader_eq]
  exact rxEffect_ask n _ _ s fits

/-! ## End of stream and failure (R252, R253) -/

/-- The record of a socket whose peer closed. -/
def Sock.ended (k : Sock) : Sock := { k with status := .closeWait, recvEnabled := false, op := .close true }

theorem rxEofRule_enabled (n : SockId) (s : State) (armed : s.armed n .established = true)
    (idle : (s.sock n).op = .none) (h : Handle) (conn : (s.sock n).conn = some h) :
    rxEofRule n s =
      ((s.ask (s.receiveRequest n h)).setSock n (s.sock n).ended).setCr n s.cfg.codes.cmdDiscon := by
  have guard : (s.armed n .established && (s.sock n).op == .none) = true := by simp [armed, idle]
  rw [rxEofRule, if_pos guard, s.askReceive_conn n h conn]
  rfl

/-- Settles O36: a request, a record and a command byte. -/
theorem endOfStreamSchedulesAClose : Obligations.EndOfStreamSchedulesAClose := by
  intro n h s alive enabled established conn idle
  have armed : s.armed n .established = true := (s.armed_iff n _).mpr ⟨enabled, established, by simp [conn]⟩
  refine ⟨_, congrArg Host.Outcome.next (if_pos alive), ?_⟩
  rw [rxEofRule_enabled n s armed idle h conn, s.receiveRequest_established n h established]
  exact commandEffect_of n _ _ (s.ask (.recvStream h))

/-- The record of a socket whose receive failed. -/
def Sock.receiveFailed (k : Sock) (intTimeout : Byte) (conn : Option Handle) : Sock :=
  { k with ir := k.ir ||| intTimeout, recvEnabled := false, conn := conn }

/-- What a failed receive asks for: the bytes, and the close of a dropped handle. -/
def State.failedRequests (s : State) (n : SockId) (keep : Bool) (h : Handle) : List NetReq :=
  s.receiveRequest n h :: (if keep = true then [] else [.close h])

theorem rxErrorRule_enabled (n : SockId) (keep : Bool) (s : State)
    (armed : s.armed n .established = true ∨ s.armed n .udp = true) (h : Handle) (conn : (s.sock n).conn = some h) :
    rxErrorRule n keep s =
      (s.askAll (s.failedRequests n keep h)).setSock n
        ((s.sock n).receiveFailed s.cfg.codes.intTimeout (if keep = true then some h else none)) := by
  have guard : (s.armed n .established || s.armed n .udp) = true := by simpa using armed
  have failed : (((s.ask (s.receiveRequest n h)).raiseInt n s.cfg.codes.intTimeout).setSock n
      { ((s.ask (s.receiveRequest n h)).raiseInt n s.cfg.codes.intTimeout).sock n with recvEnabled := false }) =
      (s.ask (s.receiveRequest n h)).setSock n
        ((s.sock n).receiveFailed s.cfg.codes.intTimeout (some h)) := by
    simp only [State.raiseInt, State.setSock_setSock, State.sock_setSock_same, Sock.receiveFailed, ← conn]
    rfl
  rw [rxErrorRule, if_pos guard, s.askReceive_conn n h conn]
  simp only [failed]
  cases keep with
  | true => rfl
  | false =>
    have asked : (s.ask (s.receiveRequest n h)).ask (.close h) = s.askAll (s.failedRequests n false h) := by
      simp [State.ask, State.askAll, State.failedRequests]
    rw [← asked]
    exact State.dropConn_setSock _ n _ h rfl

theorem commandEffect_setSock (n : SockId) (k : Sock) (s : State) :
    CommandEffect n (s.load (sockAddr s.cfg.map n s.cfg.map.oCr)) k s (s.setSock n k) where
  record := by simp
  otherRecords m other := by simp [other]
  command := rfl
  bytes _ _ := rfl
  rest := rfl

/-- Settles O37: requests and one record. -/
theorem receiveErrorTimesOut : Obligations.ReceiveErrorTimesOut := by
  intro n keep h s alive enabled status conn req
  have handle : (s.sock n).conn ≠ none := by simp [conn]
  have armed : s.armed n .established = true ∨ s.armed n .udp = true :=
    status.imp (fun x => (s.armed_iff n _).mpr ⟨enabled, x, handle⟩) fun x => (s.armed_iff n _).mpr ⟨enabled, x, handle⟩
  refine ⟨_, congrArg Host.Outcome.next (if_pos alive), ?_⟩
  rw [rxErrorRule_enabled n keep s armed h conn]
  exact commandEffect_setSock n _ (s.askAll (s.failedRequests n keep h))

end Sys2Proof.Machine
end

section
/-! SUPPORT. 42_socket_commands.md R200 to R202, 40_register_access.md R152: command bytes over a clear and over a busy
command byte, OPEN by the protocol nibble, and plain storage. -/
namespace Sys2Proof.Machine

open Sys2Proof

/-! ## Plain storage (R152, last arm) -/

/-- Settles O5: no arm but the last fits a plain address, and a read of it finds the stored byte. -/
theorem plainWriteStoresOneByte : Obligations.PlainWriteStoresOneByte := by
  intro addr d s alive h plain
  have carried : busAddr s.cfg.map addr = addr.toNat := by rw [h.map, busAddr_tabled]
  have located : locate s.cfg.map addr.toNat = .plain := by rw [h.map, locate_plain _ plain]
  obtain ⟨stored, elsewhere, rest⟩ := poke_stores s addr.toNat d
  refine ⟨s.poke addr.toNat d, ?_, stored, ?_, elsewhere, rest⟩
  · rw [exec_wr_plain s alive addr d (carried.symm ▸ located), carried]
  · simp only [State.peek, State.poke_cfg, located]
    exact stored

/-! ## The commands as the dispatcher runs them (R200) -/

theorem exec_scmdOpen (n : SockId) (s : State) :
    exec (.scmdOpen n) s = dispatch false n (fun t => .next (openByMode n t)) s := rfl
theorem exec_scmdListen (n : SockId) (s : State) :
    exec (.scmdListen n) s = dispatch false n (fun t => .next (listenRule n t)) s := rfl
theorem exec_scmdConnect (n : SockId) (s : State) :
    exec (.scmdConnect n) s = dispatch false n (fun t => .next (connectRule n t)) s := rfl
theorem exec_scmdDiscon (n : SockId) (s : State) :
    exec (.scmdDiscon n) s = dispatch true n (fun t => .next (startClose n s.cfg.codes.cmdDiscon t)) s := rfl
theorem exec_scmdClose (n : SockId) (s : State) :
    exec (.scmdClose n) s = dispatch true n (fun t => .next (startClose n s.cfg.codes.cmdClose t)) s := rfl
theorem exec_scmdSend (n : SockId) (s : State) : exec (.scmdSend n) s = dispatch false n (sendRule n) s := rfl
theorem exec_scmdSendMac (n : SockId) (s : State) :
    exec (.scmdSendMac n) s = dispatch false n (fun t => .next (sendMacRule n t)) s := rfl
theorem exec_scmdSendKeep (n : SockId) (s : State) :
    exec (.scmdSendKeep n) s = dispatch false n (fun t => .next (sendKeepRule n t)) s := rfl
theorem exec_scmdRecv (n : SockId) (s : State) :
    exec (.scmdRecv n) s = dispatch false n (fun t => .next (recvRule n t)) s := rfl
theorem exec_scmdUnrecognised (n : SockId) (c : Byte) (s : State) :
    exec (.scmdUnrecognised n c) s = dispatch false n (fun t => .next (t.ignoreCommand n)) s := rfl

/-- The arm of OPEN for a protocol nibble (R202), in the codes `k`. -/
def openByNibble (k : Config.Codes) (n : SockId) (p : BitVec 4) (s : State) : State :=
  if p = k.protoTcp then openTcp n s
  else if p = k.protoUdp then openUdp n s
  else if p = k.protoIpraw then openIpraw n s
  else openUnsupported n s

/-- The rows a mode byte may select, with the arm of OPEN each stands for. -/
inductive ModeArm (k : Config.Codes) (n : SockId) (p : BitVec 4) : Instr → Prop
  | tcp (hi : BitVec 4) (arm : openByNibble k n p = openTcp n) : ModeArm k n p (.smodeTcp n hi)
  | udp (hi : BitVec 4) (arm : openByNibble k n p = openUdp n) : ModeArm k n p (.smodeUdp n hi)
  | ipraw (hi : BitVec 4) (arm : openByNibble k n p = openIpraw n) : ModeArm k n p (.smodeIpraw n hi)
  | macraw (hi : BitVec 4) (arm : openByNibble k n p = openUnsupported n) : ModeArm k n p (.smodeMacraw n hi)
  | pppoe (hi : BitVec 4) (arm : openByNibble k n p = openUnsupported n) : ModeArm k n p (.smodePppoe n hi)
  | other (hi : BitVec 4) (arm : openByNibble k n p = openUnsupported n) : ModeArm k n p (.smodeOther n hi p)

theorem modeArm_decodeSmode (k : Config.Codes) (n : SockId) (mode : Byte) :
    ModeArm k n (mode.extractLsb' 0 4) (decodeSmode k n mode) := by
  unfold decodeSmode
  extract_lets hi p
  by_cases tcp : p = k.protoTcp
  · rw [if_pos tcp]
    exact .tcp hi (funext fun _ => if_pos tcp)
  by_cases udp : p = k.protoUdp
  · rw [if_neg tcp, if_pos udp]
    exact .udp hi (funext fun _ => (if_neg tcp).trans (if_pos udp))
  by_cases ipraw : p = k.protoIpraw
  · rw [if_neg tcp, if_neg udp, if_pos ipraw]
    exact .ipraw hi (funext fun _ => (if_neg tcp).trans ((if_neg udp).trans (if_pos ipraw)))
  have unsupported : openByNibble k n p = openUnsupported n :=
    funext fun _ => (if_neg tcp).trans ((if_neg udp).trans (if_neg ipraw))
  rw [if_neg tcp, if_neg udp, if_neg ipraw]
  split
  · exact .macraw hi unsupported
  · split
    · exact .pppoe hi unsupported
    · exact .other hi unsupported

theorem openByMode_eq (n : SockId) (s : State) :
    openByMode n s = openByNibble s.cfg.codes n ((s.sMr n).extractLsb' 0 4) s := by
  have arm := modeArm_decodeSmode s.cfg.codes n (s.sMr n)
  rw [openByMode]
  generalize decodeSmode s.cfg.codes n (s.sMr n) = i at arm
  cases arm with
  | tcp _ arm | udp _ arm | ipraw _ arm | macraw _ arm | pppoe _ arm | other _ arm => rw [arm]

/-- An SMODE row is dispatched as OPEN is, with the nibble it stands for (log 1). -/
theorem ModeArm.exec {k : Config.Codes} {n : SockId} {p : BitVec 4} {i : Instr} (arm : ModeArm k n p i) (s : State) :
    Machine.exec i s = dispatch false n (fun t => .next (openByNibble k n p t)) s := by
  cases arm with
  | tcp _ arm | udp _ arm | ipraw _ arm | macraw _ arm | pppoe _ arm | other _ arm =>
    rw [arm]
    rfl

theorem exec_decodeSmode (n : SockId) (mode : Byte) (s : State) :
    exec (decodeSmode s.cfg.codes n mode) s =
      dispatch false n (fun t => .next (openByNibble s.cfg.codes n (mode.extractLsb' 0 4) t)) s :=
  (modeArm_decodeSmode s.cfg.codes n mode).exec s

/-! ## A write to the command byte (R200) -/

/-- The SCMD rows a command byte may select (30_encoding.md R112, R113). -/
inductive CommandRow (k : Config.Codes) (n : SockId) (c : Byte) : Instr → Prop
  | none : CommandRow k n c (.scmdNone n)
  | discon : CommandRow k n c (.scmdDiscon n)
  | close : CommandRow k n c (.scmdClose n)
  | opens : CommandRow k n c (.scmdOpen n)
  | listen : CommandRow k n c (.scmdListen n)
  | connect : CommandRow k n c (.scmdConnect n)
  | send : CommandRow k n c (.scmdSend n)
  | sendMac (code : c = k.cmdSendMac) : CommandRow k n c (.scmdSendMac n)
  | sendKeep (code : c = k.cmdSendKeep) : CommandRow k n c (.scmdSendKeep n)
  | recv : CommandRow k n c (.scmdRecv n)
  | unrecognised : CommandRow k n c (.scmdUnrecognised n c)

theorem commandRow_decodeScmd (k : Config.Codes) (n : SockId) (c : Byte) : CommandRow k n c (decodeScmd k n c) := by
  unfold decodeScmd
  repeat' split
  exacts [.none, .discon, .close, .opens, .listen, .connect, .send, .sendMac ‹_›, .sendKeep ‹_›, .recv, .unrecognised]

theorem exec_wrSnCr_alive (n : SockId) (c : Byte) (s : State) (alive : s.alive = true) :
    exec (.wrSnCr n c) s = exec (decodeScmd s.cfg.codes n c) s :=
  (whenAlive_alive s _ alive).trans (commandWrite_eq_exec n c s)

/-- Hazard H3 is the only refusal over a clear command byte. -/
theorem sendRule_completes (n : SockId) (s : State) (fits : s.txUsed n ≤ s.txSize n) : Completes (sendRule n s) := by
  unfold sendRule
  rw [if_neg (Nat.not_lt_of_le fits)]
  split <;> exact ⟨_, rfl⟩

/-- Settles O16: the code selects the meaning of its row, and over a clear command byte every rule but SEND's is
total. -/
theorem commandByteRunsItsCommand : Obligations.CommandByteRunsItsCommand := by
  intro n c s alive
  refine ⟨exec_wrSnCr_alive n c s alive, fun idle fits => ?_⟩
  rw [exec_wrSnCr_alive n c s alive]
  have row := commandRow_decodeScmd s.cfg.codes n c
  generalize decodeScmd s.cfg.codes n c = i at row
  have total (rule : State → State) (closing : Bool) : Completes (dispatch closing n (fun t => .next (rule t)) s) :=
    ⟨rule s, dispatch_idle_next closing n rule s alive idle⟩
  cases row with
  | none => exact ⟨s, if_pos alive⟩
  | discon => exact total (startClose n s.cfg.codes.cmdDiscon) true
  | close => exact total (startClose n s.cfg.codes.cmdClose) true
  | opens => exact total (openByMode n) false
  | listen => exact total (listenRule n) false
  | connect => exact total (connectRule n) false
  | send =>
    rw [exec_scmdSend, dispatch_idle false n _ s alive idle]
    exact sendRule_completes n s fits
  | sendMac => exact total (sendMacRule n) false
  | sendKeep => exact total (sendKeepRule n) false
  | recv => exact total (recvRule n) false
  | unrecognised => exact total (State.ignoreCommand · n) false

/-! ## Over an operation in flight (R200, hazard H2) -/

theorem dispatch_busy (n : SockId) (rule : State → Result) (s : State) (alive : s.alive = true)
    (busy : (s.sock n).op ≠ .none) : dispatch false n rule s = .refused .commandWhileBusy := by
  rw [dispatch, if_pos alive]
  split
  case h_1 idle => exact absurd idle busy
  all_goals rfl

theorem dispatch_absorbed (n : SockId) (rule : State → Result) (s : State) (alive : s.alive = true) (had : Bool)
    (closing : (s.sock n).op = .close had) : dispatch true n rule s = .next s := by
  rw [dispatch, if_pos alive, closing]
  rfl

/-- DISCON and CLOSE over another operation: as after abandoning it. -/
theorem dispatch_abandons (n : SockId) (rule : State → State) (s : State) (alive : s.alive = true)
    (noClose : ∀ h, (s.sock n).op ≠ .close h) :
    dispatch true n (fun t => .next (rule t)) s =
      dispatch true n (fun t => .next (rule t)) (s.setSock n { s.sock n with op := .none }) := by
  have idle : ((s.setOp n .none).sock n).op = .none := by rw [State.sock_setOp, if_pos rfl]
  exact (dispatch_closing n rule s alive noClose).trans
    (dispatch_idle_next true n rule (s.setOp n .none) alive idle).symm

/-- Settles O17: the dispatcher admits only the two closing commands over an operation in flight. -/
theorem busyCommandByteAdmitsOnlyCloses : Obligations.BusyCommandByteAdmitsOnlyCloses := by
  intro n s alive busy
  have refused (rule : State → Result) := dispatch_busy n rule s alive busy
  refine ⟨if_pos alive, ?_, fun c => (exec_scmdUnrecognised n c s).trans (refused _),
    fun mode => (exec_decodeSmode n mode s).trans (refused _), ?_⟩
  · simp only [List.forall_mem_cons, List.not_mem_nil, false_implies, implies_true, and_true, exec_scmdOpen,
      exec_scmdListen, exec_scmdConnect, exec_scmdSend, exec_scmdSendMac, exec_scmdSendKeep, exec_scmdRecv, refused]
  · simp only [List.forall_mem_cons, List.not_mem_nil, false_implies, implies_true, and_true, exec_scmdDiscon,
      exec_scmdClose]
    split
    case h_1 had closing => exact ⟨dispatch_absorbed n _ s alive had closing, dispatch_absorbed n _ s alive had closing⟩
    case h_2 noClose =>
      exact ⟨dispatch_abandons n (startClose n s.cfg.codes.cmdDiscon) s alive noClose,
        dispatch_abandons n (startClose n s.cfg.codes.cmdClose) s alive noClose⟩

/-! ## OPEN (R201, R202) -/

/-- Cursors initialised, the record replaced, the command byte stored, in the tabled layout. -/
theorem openEffect_of (n : SockId) (cr : Byte) (k : Sock) (s : State) (h : s.cfg.Tabled) :
    OpenEffect n cr k s (((s.initCursors n).setSock n k).setCr n cr) := by
  have command : sockAddr s.cfg.map n s.cfg.map.oCr = blockAddr n 0x01 := by rw [h.map]; exact sockAddr_tabled n _
  have loads (a : Nat) : (((s.initCursors n).setSock n k).setCr n cr).load a =
      if a = blockAddr n 0x01 then cr
      else if ∃ off ∈ cursorOffsets, a = blockAddr n off then 0 else s.load a := by
    rw [State.load_setCr, State.setSock_load, s.load_initCursors_tabled h]
    simp only [State.setSock_cfg, State.initCursors_cfg, command]
  refine ⟨?_, fun m other => ?_, ?_, fun off cursor => ?_, fun a other => ?_, rfl⟩
  · simp
  · simp [other]
  · rw [loads, if_pos rfl]
  · have notCommand : off ≠ 0x01 := by rintro rfl; revert cursor; decide
    rw [loads, if_neg (mt (blockAddr_offset n off 0x01).mp notCommand), if_pos ⟨off, cursor, rfl⟩]
  · obtain ⟨notCommand, notCursor⟩ := List.forall_mem_cons.mp other
    rw [loads, if_neg notCommand, if_neg]
    rintro ⟨off, cursor, e⟩
    exact notCursor off cursor e

theorem State.mayOpen_iff (s : State) (n : SockId) :
    s.mayOpen n = true ↔ (s.sock n).status = .closed ∧ 0 < s.txSize n ∧ 0 < s.rxSize n := by
  simp [State.mayOpen, and_assoc]

/-- The writes of an OPEN that opens: cursors and record, then the command byte. -/
def State.openAs (s : State) (n : SockId) (x : Status) (recv : Bool) (o : CtlOp) (cr : Byte) : State :=
  ((s.initCursors n).setSock n ((s.sock n).opened x recv o)).setCr n cr

theorem openTcp_opens (n : SockId) (s : State) (may : s.mayOpen n = true) :
    openTcp n s = s.openAs n .init false (s.sock n).op 0x00 := by
  rw [openTcp, if_pos may, State.setStatus, State.sock_initCursors, if_pos rfl]
  rfl

theorem openUdp_opens (n : SockId) (s : State) (may : s.mayOpen n = true) :
    openUdp n s = s.openAs n .udp false .udpBind s.cfg.codes.cmdOpen := by
  rw [openUdp, if_pos may, State.setOp, State.setStatus, State.sock_setSock_same, State.setSock_setSock,
    State.sock_initCursors, if_pos rfl]
  rfl

theorem openIpraw_opens (n : SockId) (s : State) (may : s.mayOpen n = true) :
    openIpraw n s = s.openAs n .ipraw true (s.sock n).op 0x00 := by
  rw [openIpraw, if_pos may, State.setStatus, State.sock_initCursors, if_pos rfl]
  simp only [State.sock_setSock_same, State.setSock_setSock]
  rfl

/-- OPEN by nibble leaves what R202 says, in the tabled layout. -/
theorem openLeaves_openByNibble (n : SockId) (p : BitVec 4) (s : State) (h : s.cfg.Tabled)
    (idle : (s.sock n).op = .none) : OpenLeaves n p s (openByNibble s.cfg.codes n p s) := by
  have codes : s.cfg.codes = .tabled := h.codes
  have tcp : openByNibble s.cfg.codes n 1 s = openTcp n s := by rw [codes]; rfl
  have udp : openByNibble s.cfg.codes n 2 s = openUdp n s := by rw [codes]; rfl
  have ipraw : openByNibble s.cfg.codes n 3 s = openIpraw n s := by rw [codes]; rfl
  have cmdOpen : s.cfg.codes.cmdOpen = 0x01 := by rw [codes]; rfl
  rw [OpenLeaves]
  split
  case isTrue opens =>
    obtain ⟨closed, tx, rx, -⟩ := opens
    have may : s.mayOpen n = true := (s.mayOpen_iff n).mpr ⟨closed, tx, rx⟩
    refine ⟨?_, ?_, ?_⟩
    · rintro rfl
      rw [tcp, openTcp_opens n s may, idle]
      exact openEffect_of n 0x00 _ s h
    · rintro rfl
      rw [udp, openUdp_opens n s may, cmdOpen]
      exact openEffect_of n 0x01 _ s h
    · rintro rfl
      rw [ipraw, openIpraw_opens n s may, idle]
      exact openEffect_of n 0x00 _ s h
  case isFalse stays =>
    have ignored : openByNibble s.cfg.codes n p s = s.ignoreCommand n := by
      by_cases may : s.mayOpen n = true
      · obtain ⟨closed, tx, rx⟩ := (s.mayOpen_iff n).mp may
        have unsupported : ¬ (p = 1 ∨ p = 2 ∨ p = 3) := fun named => stays ⟨closed, tx, rx, named⟩
        simp only [not_or] at unsupported
        obtain ⟨notTcp, notUdp, notIpraw⟩ := unsupported
        rw [codes]
        exact (if_neg notTcp).trans ((if_neg notUdp).trans (if_neg notIpraw))
      · unfold openByNibble openTcp openUdp openIpraw
        simp only [if_neg may]
        repeat' split
        all_goals rfl
    rw [ignored]
    exact commandEffect_ignore n s

/-- Settles O18: OPEN and the SMODE rows are one rule on a nibble. -/
theorem openFollowsTheProtocolNibble : Obligations.OpenFollowsTheProtocolNibble := by
  intro n s alive h idle mode
  have mr : mode = s.sMr n := by rw [State.sMr, h.map, sockAddr_tabled]; rfl
  have openRuns : exec (.scmdOpen n) s = .next (openByNibble s.cfg.codes n (mode.extractLsb' 0 4) s) := by
    rw [exec_scmdOpen, dispatch_idle_next false n (openByMode n) s alive idle, openByMode_eq, mr]
  have modeRuns {p : BitVec 4} {i : Instr} (arm : ModeArm s.cfg.codes n p i) :
      ∃ t, exec i s = .next t ∧ OpenLeaves n p s t :=
    ⟨_, (arm.exec s).trans (dispatch_idle_next false n (openByNibble s.cfg.codes n p) s alive idle),
      openLeaves_openByNibble n p s h idle⟩
  have named (hi : BitVec 4) {p : BitVec 4} {i : Instr} (row : decodeSmode .tabled n (encodeMode hi p) = i) :
      ModeArm s.cfg.codes n p i := by
    have arm := modeArm_decodeSmode .tabled n (encodeMode hi p)
    rw [extract_nibble_encodeMode, row] at arm
    rwa [h.codes]
  refine ⟨⟨_, openRuns, openLeaves_openByNibble n _ s h idle⟩, ?_, fun hi => ?_, fun hi p other => ?_⟩
  · rw [exec_decodeSmode, dispatch_idle_next false n _ s alive idle, openRuns]
  · simp only [List.forall_mem_cons, List.not_mem_nil, false_implies, implies_true, and_true]
    exact ⟨modeRuns (named hi (decodeSmode_encodeMode n hi 1)), modeRuns (named hi (decodeSmode_encodeMode n hi 2)),
      modeRuns (named hi (decodeSmode_encodeMode n hi 3)), modeRuns (named hi (decodeSmode_encodeMode n hi 4)),
      modeRuns (named hi (decodeSmode_encodeMode n hi 5))⟩
  · exact modeRuns (named hi ((decodeSmode_encodeMode n hi p).trans (modeRow_other n hi p other)))

end Sys2Proof.Machine
end

section
/-! SUPPORT. 46_icmp_echo.md R344, R346, R347: probes, expiry, and the checksum of an echo reply. -/
namespace Sys2Proof.Machine

open Sys2Proof

/-! ## Probes and expiry (R344, R347) -/

theorem exec_probeDone_alive (p : Nat) (r : Bool) (s : State) (alive : s.alive = true) :
    exec (.probeDone p r) s = .next (probeRule p r s) :=
  congrArg Host.Outcome.next (if_pos alive)

theorem exec_pingExpire_alive (p : Nat) (s : State) (alive : s.alive = true) :
    exec (.pingExpire p) s = .next (pingExpireRule p s) :=
  congrArg Host.Outcome.next (if_pos alive)

/-- A probe of the ping at position `p`, by its outcome. -/
theorem probeRule_found (p : Nat) (reachable : Bool) (s : State) (g : Ping) (found : s.pings[p]? = some g) :
    probeRule p reachable s =
      if g.outcome = .pending then
        { s with
          pings := if reachable = true then s.pings.set p { g with outcome := .reachable } else s.pings.eraseIdx p
          netLog := s.netLog ++ [.probe g.target] }
      else s := by
  rw [probeRule, found]
  cases reachable <;> rfl

theorem pingExpireRule_found (p : Nat) (s : State) (g : Ping) (found : s.pings[p]? = some g) :
    pingExpireRule p s = if g.outcome = .reachable then { s with pings := s.pings.eraseIdx p } else s := by
  rw [pingExpireRule, found]

/-- Settles O45: both rules look at the outcome of the ping at the position, and replace or remove that one ping. -/
theorem probesAndExpiryMovePings : Obligations.ProbesAndExpiryMovePings := by
  intro pre post g s alive whole
  have found : s.pings[pre.length]? = some g := by simp [whole]
  have marked (g' : Ping) : s.pings.set pre.length g' = pre ++ g' :: post := by simp [whole]
  have removed : s.pings.eraseIdx pre.length = pre ++ post := by simp [whole, List.eraseIdx_append_of_length_le]
  refine ⟨fun pending => ⟨?_, ?_, ?_⟩, fun reached => ⟨fun r => ?_, ?_⟩⟩
  · rw [exec_probeDone_alive _ _ s alive, probeRule_found _ _ s g found, if_pos pending, if_pos rfl, marked]
  · rw [exec_probeDone_alive _ _ s alive, probeRule_found _ _ s g found, if_pos pending, if_neg Bool.false_ne_true,
      removed]
  · rw [exec_pingExpire_alive _ s alive, pingExpireRule_found _ s g found, if_neg (by simp [pending])]
  · rw [exec_probeDone_alive _ _ s alive, probeRule_found _ _ s g found, if_neg (by simp [reached])]
  · rw [exec_pingExpire_alive _ s alive, pingExpireRule_found _ s g found, if_pos reached, removed]

/-! ## The checksum (R346) -/

/-- Folding the carry of a sum keeps it modulo 0xFFFF, and does not make a positive sum 0. -/
theorem foldCarry_modEq (fuel s : Nat) : foldCarry fuel s % 65535 = s % 65535 := by
  induction fuel generalizing s with
  | zero => rfl
  | succ fuel ih =>
    rw [foldCarry]
    split
    · rw [ih]; omega
    · rfl

theorem foldCarry_pos (fuel s : Nat) (pos : 0 < s) : 0 < foldCarry fuel s := by
  induction fuel generalizing s with
  | zero => exact pos
  | succ fuel ih =>
    rw [foldCarry]
    split
    · exact ih _ (by omega)
    · exact pos

/-- A sum is fuel enough to fold itself: every round makes it smaller. -/
theorem foldCarry_le (fuel s : Nat) (enough : s ≤ fuel) : foldCarry fuel s ≤ 0xFFFF := by
  induction fuel generalizing s with
  | zero => rw [foldCarry]; omega
  | succ fuel ih =>
    rw [foldCarry]
    split
    · exact ih _ (by omega)
    · omega

/-- A 16-bit word weighs what its two bytes weigh (R82). -/
theorem toNat_hi_lo (w : Half) : (hiByte w).toNat * 256 + (loByte w).toNat = w.toNat := by
  have lt := w.isLt
  rw [hiByte, loByte, BitVec.extractLsb'_toNat, BitVec.extractLsb'_toNat, Nat.shiftRight_eq_div_pow, Nat.shiftRight_zero]
  omega

/-- The two parts of a reply's sum. -/
theorem wordSum_echoReply (req : List Byte) :
    wordSum (echoReply req) = (icmpChecksum (replyBody req)).toNat + wordSum (req.drop 4) := by
  calc wordSum (echoReply req)
      = 0 * 256 + 0 + ((hiByte (icmpChecksum (replyBody req))).toNat * 256
          + (loByte (icmpChecksum (replyBody req))).toNat + wordSum (req.drop 4)) := rfl
    _ = _ := by rw [toNat_hi_lo]; omega

theorem wordSum_replyBody (req : List Byte) : wordSum (replyBody req) = wordSum (req.drop 4) := by
  calc wordSum (replyBody req) = 0 * 256 + 0 + (0 * 256 + 0 + wordSum (req.drop 4)) := rfl
    _ = _ := by omega

/-- The checksum is the complement of the folded sum. -/
theorem toNat_icmpChecksum (b : List Byte) : (icmpChecksum b).toNat = 65535 - foldCarry (wordSum b) (wordSum b) := by
  have le := foldCarry_le (wordSum b) (wordSum b) (Nat.le_refl _)
  rw [icmpChecksum, BitVec.toNat_not, BitVec.toNat_ofNat, Nat.mod_eq_of_lt (by omega)]

/-- Settles O47: with the complement of the folded sum the whole weighs a positive multiple of 0xFFFF, and the only one a
folded sum can be is 0xFFFF itself. -/
theorem echoReplyVerifies : Obligations.EchoReplyVerifies := by
  intro req long rep
  refine ⟨length_echoReply req (by omega), rfl, rfl, wordSum rep, ?_⟩
  have sum : wordSum rep = 65535 - foldCarry (wordSum (req.drop 4)) (wordSum (req.drop 4)) + wordSum (req.drop 4) := by
    rw [wordSum_echoReply, toNat_icmpChecksum, wordSum_replyBody]
  have le := foldCarry_le (wordSum (req.drop 4)) (wordSum (req.drop 4)) (Nat.le_refl _)
  have folded := foldCarry_modEq (wordSum (req.drop 4)) (wordSum (req.drop 4))
  have nonzero := foldCarry_pos (wordSum (req.drop 4)) (wordSum (req.drop 4))
  have zero : wordSum (req.drop 4) = 0 → foldCarry (wordSum (req.drop 4)) (wordSum (req.drop 4)) = 0 := by
    intro e
    rw [e]
    rfl
  have pos : 0 < wordSum rep := by omega
  have le' := foldCarry_le (wordSum rep) (wordSum rep) (Nat.le_refl _)
  have folded' := foldCarry_modEq (wordSum rep) (wordSum rep)
  have pos' := foldCarry_pos (wordSum rep) (wordSum rep) pos
  omega

end Sys2Proof.Machine
end

section
/-! SUPPORT. 47_firmware_facade.md R366 to R376: the facade commands that answer at once. -/
namespace Sys2Proof.Machine

open Sys2Proof

/-- The error counter saturates (R361). -/
theorem bumped_eq (e : Byte) : bumped e = BitVec.ofNat 8 (min (e.toNat + 1) 255) := by
  have lt := e.isLt
  apply BitVec.eq_of_toNat_eq
  rw [bumped]
  split
  case isTrue full => simp [full]
  case isFalse room =>
    have notFull : e.toNat ≠ 255 := fun h => room (BitVec.eq_of_toNat_eq h)
    rw [BitVec.toNat_add, BitVec.toNat_ofNat]
    simp
    omega

/-- The timer counts modulo 65536 (R368). -/
theorem timer_eq (now t0 : Nat) (le : t0 ≤ now) :
    BitVec.ofNat 16 now - BitVec.ofNat 16 t0 = BitVec.ofNat 16 ((now - t0) % 65536) := by
  apply BitVec.eq_of_toNat_eq
  simp only [BitVec.toNat_sub, BitVec.toNat_ofNat]
  omega

/-- The state after a counted error (R369, R370, R375). -/
theorem State.countError_answer (s : State) (out : List Byte) :
    (s.answer out).countError = { s with fa := { s.fa with
      out := out, phase := .idle, err := BitVec.ofNat 8 (min (s.fa.err.toNat + 1) 255) } } := by
  rw [← bumped_eq]
  rfl

/-- Settles O48: a live block runs each command's rule, and the rules with a slot test it. -/
theorem facadeCommandsAnswer : Obligations.FacadeCommandsAnswer := by
  intro s alive ans err bad low
  have run (r : Result) : whenAlive s r = r := whenAlive_alive s r alive
  refine ⟨fun _ => run _, run _, fun started => ?_, fun i ip slot => ?_, fun i ip noSlot => ?_, fun i slot => ?_,
    fun i noSlot => ?_, run _, run _, run _, run _, run _, fun _ => ?_⟩
  · rw [← timer_eq _ _ started]
    exact run _
  · exact (run _).trans (dif_pos slot)
  · exact (run _).trans ((dif_neg (Nat.not_lt_of_le noSlot)).trans (congrArg _ (s.countError_answer [])))
  · exact (run _).trans (dif_pos slot)
  · exact (run _).trans ((dif_neg (Nat.not_lt_of_le noSlot)).trans (congrArg _ (s.countError_answer [0, 0, 0, 0])))
  · exact (run _).trans (congrArg _ (s.countError_answer []))

/-! ## F_PORTNO (R371) -/

/-- The search meets every number from `p` on, as many as its fuel. -/
theorem firstFreePort_none (prov : List Half) (fuel : Nat) (p : Half) (none : firstFreePort prov fuel p = none) :
    ∀ i < fuel, p + BitVec.ofNat 16 i = 0 ∨ p + BitVec.ofNat 16 i ∈ prov := by
  induction fuel generalizing p with
  | zero => omega
  | succ fuel ih =>
    rw [firstFreePort] at none
    split at none
    case isTrue => cases none
    case isFalse taken =>
      intro i lt
      cases i with
      | zero =>
        by_contra free
        simp only [BitVec.ofNat_eq_ofNat, BitVec.add_zero, not_or] at free
        exact taken ⟨free.1, by simpa using free.2⟩
      | succ i =>
        rw [← add_one_add_ofNat]
        exact ih (p + 1) none i (by omega)

/-- A free port is found, if there is one: 65536 steps meet every number. -/
theorem firstFreePort_exists (prov : List Half) (start p : Half) (nonzero : p ≠ 0) (free : p ∉ prov) :
    ∃ q, firstFreePort prov 65536 start = some q := by
  cases found : firstFreePort prov 65536 start with
  | some q => exact ⟨q, rfl⟩
  | none =>
    have met := firstFreePort_none prov 65536 start found (p - start).toNat (p - start).isLt
    have reached : start + BitVec.ofNat 16 (p - start).toNat = p := by
      rw [BitVec.ofNat_toNat, BitVec.setWidth_eq, BitVec.add_comm, BitVec.sub_add_cancel]
    rw [reached] at met
    exact (met.elim nonzero free).elim

theorem exec_fPortno_found (s : State) (alive : s.alive = true) (p : Half)
    (found : firstFreePort s.prov 65536 s.portIn = some p) (free : p ∉ s.prov) :
    exec .fPortno s = .next { s with
      prov := s.prov ++ [p], netLog := s.netLog ++ [.reservePort]
      fa := { s.fa with out := [loByte p, hiByte p], phase := .idle } } := by
  have inserted : portInsert s.prov p = s.prov ++ [p] := if_neg (by simpa using free)
  show execFPortno s = _
  rw [execFPortno, whenAlive_alive s _ alive, found, ← inserted]
  rfl

theorem exec_fPortno_none (s : State) (alive : s.alive = true) (none : firstFreePort s.prov 65536 s.portIn = none) :
    exec .fPortno s = .refused .noFreePort := by
  show execFPortno s = _
  rw [execFPortno, whenAlive_alive s _ alive, none]

/-- Settles O51: the search finds a free port exactly if there is one. -/
theorem portAllocationReserves : Obligations.PortAllocationReserves := by
  intro s alive
  constructor
  · rintro ⟨q, nonzero, free⟩
    obtain ⟨p, found⟩ := firstFreePort_exists s.prov s.portIn q nonzero free
    obtain ⟨pNonzero, pFree⟩ := firstFreePort_spec _ _ _ _ found
    refine ⟨p, pNonzero, pFree, fun lineNonzero lineFree => ?_, exec_fPortno_found s alive p found pFree⟩
    exact Option.some.inj (found.symm.trans (firstFreePort_self s.prov 65535 s.portIn lineNonzero lineFree))
  · intro full
    refine exec_fPortno_none s alive ?_
    cases found : firstFreePort s.prov 65536 s.portIn with
    | none => rfl
    | some p =>
      obtain ⟨nonzero, free⟩ := firstFreePort_spec _ _ _ _ found
      exact absurd (full p nonzero) free

end Sys2Proof.Machine
end

section
/-! SUPPORT. 70_reset_and_hazards.md R445; 30_encoding.md R110; 47_firmware_facade.md R361, R363: what a step does with
the next unit, and what a destroyed block does. -/
namespace Sys2Proof.Machine

open Sys2Proof

/-! ## A destroyed block (R445) -/

theorem dispatch_dead (closing : Bool) (n : SockId) (rule : State → Result) (s : State) (dead : s.alive = false) :
    dispatch closing n rule s = .refused .destroyed :=
  if_neg (by simp [dead])

/-- What is presented to a destroyed block without being an access changes nothing (log 7). -/
theorem next_ite_dead {s t : State} (dead : s.alive = false) :
    (.next (if s.alive = true then t else s) : Result) = .next s := by
  rw [dead]
  rfl

theorem next_ite_dead_and {s t : State} (c : Bool) (dead : s.alive = false) :
    (.next (if (s.alive && c) = true then t else s) : Result) = .next s := by
  rw [dead]
  rfl

theorem exec_dead (i : Instr) (s : State) (dead : s.alive = false) :
    exec i s = if isAccess i = true then .refused .destroyed else .next s := by
  cases i with
  | rd | wr | wrCMr | wrCIr | wrSnCr | wrSnIr | wrSnSr | wrSnTxWrLo | wrSnRxRdLo | fWrbytes | fRdbytes | fSetaddr
  | fGetaddr | fRdtimer | fWrip | fRdip | fPortno | fSwver | fHwver | fLink | fId | fErrcnt | fUnknown =>
    exact whenAlive_dead s _ dead
  | scmdNone n => exact if_neg (by simp [dead])
  | scmdOpen n | scmdListen n | scmdConnect n | scmdDiscon n | scmdClose n | scmdSend n | scmdSendMac n
  | scmdSendKeep n | scmdRecv n | scmdUnrecognised n c =>
    simp only [exec_scmdOpen, exec_scmdListen, exec_scmdConnect, exec_scmdDiscon, exec_scmdClose, exec_scmdSend,
      exec_scmdSendMac, exec_scmdSendKeep, exec_scmdRecv, exec_scmdUnrecognised, dispatch_dead _ n _ s dead]
    rfl
  | smodeTcp n hi => exact dispatch_dead false n (fun t => .next (openTcp n t)) s dead
  | smodeUdp n hi => exact dispatch_dead false n (fun t => .next (openUdp n t)) s dead
  | smodeIpraw n hi => exact dispatch_dead false n (fun t => .next (openIpraw n t)) s dead
  | smodeMacraw n hi | smodePppoe n hi | smodeOther n hi p =>
    exact dispatch_dead false n (fun t => .next (openUnsupported n t)) s dead
  | ctlUdpbindDone n r | ctlListenDone n r d => exact next_ite_dead_and _ dead
  | ctlSendDone n ok keep =>
    show execCtlSendDone n ok keep s = _
    rw [execCtlSendDone, Bool.and_assoc]
    exact next_ite_dead_and _ dead
  | ctlConnectDone n r =>
    show execCtlConnectDone n r s = _
    rw [execCtlConnectDone]
    split
    · exact next_ite_dead dead
    · rfl
  | ctlCloseDone n =>
    show execCtlCloseDone n s = _
    rw [execCtlCloseDone]
    split
    · exact next_ite_dead dead
    · rfl
  | rxTcp | rxUdp | rxEof | rxError | rxDhcpDeliver | rxIpraw | probeDone | pingExpire | dhcpExpire | dhcpDiscover
  | dhcpRequest | icmpEchoRequest | lifeSoft | lifeColdOn | lifePowerOff | lifeDestroy => exact next_ite_dead dead
  | dhcpOther | dhcpInvalid | icmpOther => rfl

theorem feed_dead (bytes : List Byte) (s : State) (dead : s.alive = false) : feed bytes s = .refused .destroyed := by
  cases bytes with
  | nil => exact whenAlive_dead s _ dead
  | cons b bs =>
    have first : feedByte b s = .refused .destroyed := whenAlive_dead s _ dead
    rw [feed_cons, first]

/-- Settles O15: every access asks whether the block is alive, and so does every other rule that changes anything. -/
theorem destroyedIsFinal : Obligations.DestroyedIsFinal := by
  intro s dead
  refine ⟨fun i => exec_dead i s dead, fun rest => ⟨fun bytes => feed_dead bytes _ dead, ?_, ?_, fun b => ?_⟩⟩
  · exact whenAlive_dead { s with inputs := rest } _ dead
  · exact whenAlive_dead { s with inputs := rest } _ dead
  · exact whenAlive_dead { s with inputs := rest } _ dead

end Sys2Proof.Machine
end

section
/-! SUPPORT. What one instruction may do to the record of a socket and to its command byte, all cases in one list
(42_socket_commands.md R200 to R214, 43_engines.md R243 to R253); the claims about every step are read off it. -/
namespace Sys2Proof.Machine

open Sys2Proof

/-! ## The list -/

/-- May the instruction raise the bits of the mask `int` on socket n (60_exceptions.md R401)? -/
def Raises (s : State) (i : Instr) (n : SockId) (int : Byte) : Prop :=
  ∀ b, int.getLsbD b = true → mayRaise s i n b = true

/-- What instruction `i` may make of the record of socket n: the new record, the byte stored as its command byte if one
is, and how many handle tokens are handed out. -/
inductive RecordMove (s : State) (i : Instr) (n : SockId) : Sock → Option Byte → Nat → Prop
  | same : RecordMove s i n (s.sock n) none 0
  | ignored (idle : (s.sock n).op = .none) : RecordMove s i n (s.sock n) (some 0x00) 0
  | abandoned (closed : (s.sock n).status = .closed) : RecordMove s i n { s.sock n with op := .none } (some 0x00) 0
  | acknowledged (v : Byte) :
    RecordMove s i n { s.sock n with ir := (s.sock n).ir &&& ~~~v &&& s.cfg.codes.intMask } none 0
  | txCommitted (p : Half) : RecordMove s i n { s.sock n with txWr := p } none 0
  | rxCommitted (p : Half) (within : (p - (s.sock n).rxRd).toNat ≤ s.rxUsed n) :
    RecordMove s i n { s.sock n with rxRd := p } none 0
  | opened (x : Status) (recv : Bool) (o : CtlOp) (cr : Byte) (closed : (s.sock n).status = .closed)
    (arm : (x, recv, o, cr) ∈ [(.init, false, .none, 0x00), (.udp, false, .udpBind, s.cfg.codes.cmdOpen),
      (.ipraw, true, .none, 0x00)]) : RecordMove s i n ((s.sock n).opened x recv o) (some cr) 0
  | listens (init : (s.sock n).status = .init) :
    RecordMove s i n { s.sock n with status := .listen, op := .listen } (some s.cfg.codes.cmdListen) 0
  | connects (ms : Nat) (init : (s.sock n).status = .init) :
    RecordMove s i n { s.sock n with op := .connect ms } (some s.cfg.codes.cmdConnect) 0
  | closes (had : Bool) (v : Byte) (code : v = s.cfg.codes.cmdDiscon ∨ v = s.cfg.codes.cmdClose)
    (notClosed : (s.sock n).status ≠ .closed) :
    RecordMove s i n { s.sock n with
      recvEnabled := false, status := if (s.sock n).status = .closeWait then .closeWait else .closing
      op := .close had } (some v) 0
  | sends (transfer : transfers (s.sock n).status = true) :
    RecordMove s i n { s.sock n with op := .send } (some s.cfg.codes.cmdSend) 0
  | releases (idle : (s.sock n).op = .none) (raises : Raises s i n s.cfg.codes.intSendOk) :
    RecordMove s i n { s.sock n with
      txRd := (s.sock n).txWr, ir := (s.sock n).ir ||| s.cfg.codes.intSendOk } (some 0x00) 0
  | unkept (idle : (s.sock n).op = .none) (raises : Raises s i n s.cfg.codes.intTimeout) :
    RecordMove s i n { s.sock n with ir := (s.sock n).ir ||| s.cfg.codes.intTimeout } (some 0x00) 0
  | arms (idle : (s.sock n).op = .none) (transfer : transfers (s.sock n).status = true) :
    RecordMove s i n { s.sock n with recvEnabled := true } (some 0x00) 0
  | bound (binding : (s.sock n).op = .udpBind) : RecordMove s i n ((s.sock n).bound s.nextHandle) (some 0x00) 1
  | timedOut (busy : (s.sock n).op = .udpBind ∨ ∃ ms, (s.sock n).op = .connect ms)
    (raises : Raises s i n s.cfg.codes.intTimeout) :
    RecordMove s i n ((s.sock n).timedOut s.cfg.codes.intTimeout) (some 0x00) 0
  | unheard (keeps : Bool) (listening : (s.sock n).op = .listen) (raises : Raises s i n s.cfg.codes.intTimeout) :
    RecordMove s i n (((s.sock n).listening keeps s.nextHandle).timedOut s.cfg.codes.intTimeout) (some 0x00)
      ((s.sock n).listenTokens keeps)
  | accepted (keeps : Bool) (listening : (s.sock n).op = .listen) (outside : isAccess i = false)
    (raises : Raises s i n s.cfg.codes.intCon) :
    RecordMove s i n (((s.sock n).listening keeps s.nextHandle).established
      (s.nextHandle + (s.sock n).listenTokens keeps) s.cfg.codes.intCon) (some 0x00)
      ((s.sock n).listenTokens keeps + 1)
  | connected (ms : Nat) (connecting : (s.sock n).op = .connect ms) (outside : isAccess i = false)
    (raises : Raises s i n s.cfg.codes.intCon) :
    RecordMove s i n ((s.sock n).established s.nextHandle s.cfg.codes.intCon) (some 0x00) 1
  | sent (conn : Option Handle) (int : Byte) (sending : (s.sock n).op = .send)
    (transfer : transfers (s.sock n).status = true) (handle : conn = (s.sock n).conn ∨ conn = none)
    (mask : int = s.cfg.codes.intSendOk ∨ int = s.cfg.codes.intTimeout) (raises : Raises s i n int) :
    RecordMove s i n { (s.sock n).drainedWith int with conn := conn } (some 0x00) 0
  | closed (had : Bool) (closing : (s.sock n).op = .close had) (done : i = .ctlCloseDone n)
    (raises : Raises s i n s.cfg.codes.intDiscon) :
    RecordMove s i n ((s.sock n).closed s.cfg.codes.intDiscon had) (some 0x00) 0
  | received (len : Nat) (outside : isAccess i = false) (room : s.Inv → len ≤ s.rxFree n)
    (raises : Raises s i n s.cfg.codes.intRecv) :
    RecordMove s i n { s.sock n with
      rxWr := (s.sock n).rxWr + BitVec.ofNat 16 len, recvEnabled := false
      ir := (s.sock n).ir ||| s.cfg.codes.intRecv } none 0
  | ended (established : (s.sock n).status = .established) (outside : isAccess i = false) :
    RecordMove s i n (s.sock n).ended (some s.cfg.codes.cmdDiscon) 0
  | receiveFailed (conn : Option Handle) (handle : conn = (s.sock n).conn ∨ conn = none)
    (raises : Raises s i n s.cfg.codes.intTimeout) :
    RecordMove s i n ((s.sock n).receiveFailed s.cfg.codes.intTimeout conn) none 0

/-- The record of socket n becomes `k`, its command byte (in the tabled layout) `cr` if one is stored, `tokens` handle
tokens are handed out; the other sockets keep record and command byte. -/
structure RecordStep (n : SockId) (k : Sock) (cr : Option Byte) (tokens : Nat) (s t : State) : Prop where
  record : t.sock n = k
  otherRecords : ∀ m, m ≠ n → t.sock m = s.sock m
  command : s.cfg.Tabled → t.sCr n = cr.getD (s.sCr n)
  otherCommands : s.cfg.Tabled → ∀ m, m ≠ n → t.sCr m = s.sCr m
  tokens : t.nextHandle = s.nextHandle + tokens
  cfg : t.cfg = s.cfg

/-- Every socket has the record and the command byte of a reset. -/
structure AllReset (s t : State) : Prop where
  records : ∀ n, t.sock n = Sock.reset
  commands : s.cfg.Tabled → ∀ n, t.sCr n = 0x00
  tokens : t.nextHandle = s.nextHandle
  cfg : t.cfg = s.cfg

/-- What every instruction but a facade block write does to the records: a move of the list on one socket, or a
reset. -/
def Moves (s : State) (i : Instr) (t : State) : Prop :=
  (∃ n k cr tokens, RecordMove s i n k cr tokens ∧ RecordStep n k cr tokens s t)
    ∨ (resets s i = true ∧ AllReset s t)

/-! ## Steps of one record -/

theorem State.sCr_tabled (s : State) (h : s.cfg.Tabled) (n : SockId) : s.sCr n = s.load (blockAddr n 0x01) := by
  rw [State.sCr, h.map, sockAddr_tabled]
  rfl

/-- The record is replaced, no command byte stored. -/
theorem RecordStep.kept {n : SockId} {k : Sock} {tokens : Nat} {s t : State} (socks : t.socks = (s.setSock n k).socks)
    (cfg : t.cfg = s.cfg) (next : t.nextHandle = s.nextHandle + tokens)
    (bytes : s.cfg.Tabled → ∀ m, t.load (blockAddr m 0x01) = s.load (blockAddr m 0x01)) :
    RecordStep n k none tokens s t := by
  have view (m : SockId) : t.sock m = (s.setSock n k).sock m := by rw [State.sock, socks]; rfl
  have commands (h : s.cfg.Tabled) (m : SockId) : t.sCr m = s.sCr m := by
    rw [t.sCr_tabled (cfg ▸ h), s.sCr_tabled h, bytes h]
  refine ⟨?_, fun m other => ?_, fun h => commands h n, fun h m _ => commands h m, next, cfg⟩
  · rw [view, State.sock_setSock_same]
  · rw [view, State.sock_setSock, if_neg other]

/-- The record is replaced and the command byte stored. -/
theorem RecordStep.stored {n : SockId} {k : Sock} {cr : Byte} {tokens : Nat} {s t : State}
    (socks : t.socks = (s.setSock n k).socks) (cfg : t.cfg = s.cfg) (next : t.nextHandle = s.nextHandle + tokens)
    (bytes : s.cfg.Tabled → ∀ m, t.load (blockAddr m 0x01) = (s.setCr n cr).load (blockAddr m 0x01)) :
    RecordStep n k (some cr) tokens s t := by
  have view (m : SockId) : t.sock m = (s.setSock n k).sock m := by rw [State.sock, socks]; rfl
  have commands (h : s.cfg.Tabled) (m : SockId) : t.sCr m = if m = n then cr else s.sCr m := by
    have address : sockAddr s.cfg.map n s.cfg.map.oCr = blockAddr n 0x01 := by rw [h.map]; exact sockAddr_tabled n _
    have inj := blockAddr_inj m n 0x01 0x01 (by omega) (by omega)
    rw [t.sCr_tabled (cfg ▸ h), s.sCr_tabled h, bytes h, State.load_setCr, address]
    simp only [inj, and_true]
  refine ⟨?_, fun m other => ?_, fun h => ?_, fun h m other => ?_, next, cfg⟩
  · rw [view, State.sock_setSock_same]
  · rw [view, State.sock_setSock, if_neg other]
  · rw [commands h, if_pos rfl]
    rfl
  · rw [commands h, if_neg other]

theorem RecordStep.of_commandEffect {n : SockId} {cr : Byte} {k : Sock} {s t : State} (e : CommandEffect n cr k s t) :
    RecordStep n k (some cr) 0 s t := by
  have cfg : t.cfg = s.cfg := by rw [e.rest]
  have next : t.nextHandle = s.nextHandle := by rw [e.rest]
  refine ⟨e.record, e.otherRecords, fun h => ?_, fun h m other => ?_, next, cfg⟩
  · rw [State.sCr, cfg]
    exact e.command
  · have apart := mt (blockAddr_inj m n 0x01 0x01 (by omega) (by omega)).mp (fun both => other both.1)
    rw [t.sCr_tabled (cfg ▸ h), s.sCr_tabled h, (e.commitEffect h).bytes _ apart]

theorem RecordStep.refl (n : SockId) (s : State) : RecordStep n (s.sock n) none 0 s s :=
  .kept (by rw [State.setSock_sock]) rfl rfl fun _ _ => rfl

theorem Moves.of_step {s t : State} {i : Instr} {n : SockId} {k : Sock} {cr : Option Byte} {tokens : Nat}
    (move : RecordMove s i n k cr tokens) (step : RecordStep n k cr tokens s t) : Moves s i t :=
  .inl ⟨n, k, cr, tokens, move, step⟩

/-- A state with the same records, stored bytes, configuration and tokens. -/
theorem Moves.untouched {s t : State} {i : Instr} (socks : t.socks = s.socks) (mem : t.mem = s.mem)
    (cfg : t.cfg = s.cfg) (next : t.nextHandle = s.nextHandle) : Moves s i t := by
  have same : t.socks = (s.setSock 0 (s.sock 0)).socks := by rw [State.setSock_sock, socks]
  refine .of_step (n := 0) .same (.kept same cfg next fun _ m => ?_)
  rw [State.load, mem]
  rfl

theorem Moves.refl (s : State) (i : Instr) : Moves s i s := .untouched rfl rfl rfl rfl

/-! ## Commands (R200 to R214) -/

/-- Of a command that is no close a next state comes only over a clear command byte. -/
theorem dispatch_next {n : SockId} {rule : State → Result} {s t : State} (h : dispatch false n rule s = .next t) :
    s.alive = true ∧ (s.sock n).op = .none ∧ rule s = .next t := by
  obtain ⟨alive, ⟨idle, next⟩ | ⟨_, _, closing, _⟩ | ⟨_, _, closing, _⟩⟩ := dispatch_cases _ _ _ _ _ h
  · exact ⟨alive, idle, next⟩
  · cases closing
  · cases closing

section
variable {s t : State} {i : Instr} {n : SockId}

theorem Moves.ignored (idle : (s.sock n).op = .none) : Moves s i (s.ignoreCommand n) :=
  .of_step (.ignored idle) (.of_commandEffect (commandEffect_ignore n s))

/-- A rule that acts under its guard and is ignored elsewhere. -/
theorem Moves.guarded {p : Prop} [Decidable p] {cr : Byte} {k : Sock} (idle : (s.sock n).op = .none)
    (effect : if p then CommandEffect n cr k s t else CommandEffect n 0x00 (s.sock n) s t)
    (move : p → RecordMove s i n k (some cr) 0) : Moves s i t := by
  split at effect
  case isTrue acts => exact .of_step (move acts) (.of_commandEffect effect)
  case isFalse => exact .of_step (.ignored idle) (.of_commandEffect effect)

theorem Moves.startClose (v : Byte) (code : v = s.cfg.codes.cmdDiscon ∨ v = s.cfg.codes.cmdClose)
    (h : dispatch true n (fun u => .next (Machine.startClose n v u)) s = .next t) : Moves s i t := by
  have alive : s.alive = true := (dispatch_cases _ _ _ _ _ h).1
  by_cases noClose : ∀ had, (s.sock n).op ≠ .close had
  · rw [dispatch_closing n _ s alive noClose] at h
    cases h
    have effect := commandEffect_startClose_abandoned n v s
    simp only at effect
    split at effect
    case isTrue closed => exact .of_step (.abandoned closed) (.of_commandEffect effect)
    case isFalse notClosed => exact .of_step (.closes _ v code notClosed) (.of_commandEffect effect)
  · obtain ⟨had, closing⟩ := not_forall_not.mp noClose
    rw [dispatch_absorbed n _ s alive had closing] at h
    cases h
    exact .refl s i

theorem cursorOffsets_lt : ∀ off ∈ cursorOffsets, off < 0x100 := by decide

/-- What OPEN writes beside record and command byte is no command byte. -/
theorem RecordStep.openAs (s : State) (n : SockId) (x : Status) (recv : Bool) (o : CtlOp) (cr : Byte) :
    RecordStep n ((s.sock n).opened x recv o) (some cr) 0 s (s.openAs n x recv o cr) := by
  have noCursor (m : SockId) : ¬ ∃ off ∈ cursorOffsets, blockAddr m 0x01 = blockAddr n off := by
    rintro ⟨off, cursor, same⟩
    have lt : off < 0x100 := cursorOffsets_lt off cursor
    rw [← ((blockAddr_inj m n 0x01 off (by omega) lt).mp same).2] at cursor
    revert cursor
    decide
  refine .stored ?_ rfl rfl fun h m => ?_
  · have last := congrArg State.socks (State.setSock_setSock s n
      { s.sock n with txRd := 0, txWr := 0, rxRd := 0, rxWr := 0, recvEnabled := false } ((s.sock n).opened x recv o))
    exact last
  · rw [State.openAs, State.load_setCr, State.load_setCr, State.setSock_load, State.setSock_cfg, State.initCursors_cfg,
      s.load_initCursors_tabled h, if_neg (noCursor m)]

/-- The arms of OPEN that open. -/
theorem Moves.opens {x : Status} {recv : Bool} {o : CtlOp} {cr : Byte} (may : s.mayOpen n = true)
    (arm : (x, recv, o, cr) ∈ [(.init, false, .none, 0x00), (.udp, false, .udpBind, s.cfg.codes.cmdOpen),
      (.ipraw, true, .none, 0x00)]) : Moves s i (s.openAs n x recv o cr) :=
  .of_step (.opened x recv o cr ((s.mayOpen_iff n).mp may).1 arm) (.openAs s n x recv o cr)

theorem Moves.openTcp (idle : (s.sock n).op = .none) : Moves s i (Machine.openTcp n s) := by
  by_cases may : s.mayOpen n = true
  · rw [openTcp_opens n s may, idle]
    exact .opens may (by simp)
  · have stays : Machine.openTcp n s = s.ignoreCommand n := if_neg may
    exact stays ▸ .ignored idle

theorem Moves.openUdp (idle : (s.sock n).op = .none) : Moves s i (Machine.openUdp n s) := by
  by_cases may : s.mayOpen n = true
  · rw [openUdp_opens n s may]
    exact .opens may (by simp)
  · have stays : Machine.openUdp n s = s.ignoreCommand n := if_neg may
    exact stays ▸ .ignored idle

theorem Moves.openIpraw (idle : (s.sock n).op = .none) : Moves s i (Machine.openIpraw n s) := by
  by_cases may : s.mayOpen n = true
  · rw [openIpraw_opens n s may, idle]
    exact .opens may (by simp)
  · have stays : Machine.openIpraw n s = s.ignoreCommand n := if_neg may
    exact stays ▸ .ignored idle

theorem Moves.openByMode (idle : (s.sock n).op = .none) : Moves s i (Machine.openByMode n s) := by
  unfold Machine.openByMode
  split
  · exact .openTcp idle
  · exact .openUdp idle
  · exact .openIpraw idle
  · exact .ignored idle

theorem Moves.sendRule (idle : (s.sock n).op = .none) (h : Machine.sendRule n s = .next t) : Moves s i t := by
  unfold Machine.sendRule at h
  split at h
  case isTrue transfer =>
    split at h
    · cases h
    · cases h
      exact .of_step (.sends transfer) (.of_commandEffect (commandEffect_of n _ _ s))
  case isFalse =>
    cases h
    exact .ignored idle

theorem Moves.sendMacRule (idle : (s.sock n).op = .none) (raises : Raises s i n s.cfg.codes.intSendOk) :
    Moves s i (Machine.sendMacRule n s) :=
  .guarded idle (commandEffect_sendMacRule n s) fun _ => .releases idle raises

theorem Moves.sendKeepRule (idle : (s.sock n).op = .none) (raises : Raises s i n s.cfg.codes.intTimeout) :
    Moves s i (Machine.sendKeepRule n s) := by
  rw [sendKeepRule_eq]
  split
  case isTrue => exact .of_step (.unkept idle raises) (.of_commandEffect (commandEffect_of n _ _ s))
  case isFalse => exact .ignored idle

theorem Moves.recvRule (idle : (s.sock n).op = .none) : Moves s i (Machine.recvRule n s) := by
  unfold Machine.recvRule
  split
  case isTrue transfer => exact .of_step (.arms idle transfer) (.of_commandEffect (commandEffect_of n _ _ s))
  case isFalse => exact .ignored idle

/-- A command that is no close, total over a clear command byte. -/
theorem Moves.dispatched {rule : State → State} (h : dispatch false n (fun u => .next (rule u)) s = .next t)
    (move : (s.sock n).op = .none → Moves s i (rule s)) : Moves s i t := by
  obtain ⟨-, idle, next⟩ := dispatch_next h
  cases next
  exact move idle

theorem exec_scmdNone_next (h : exec (.scmdNone n) s = .next t) : s = t := by
  cases alive : s.alive with
  | false => rw [exec_dead _ s alive] at h; cases h
  | true => exact Host.Outcome.next.inj ((if_pos alive : exec (.scmdNone n) s = .next s).symm.trans h)

/-- Every SCMD row, presented as instruction `i`. -/
theorem CommandRow.moves {c : Byte} {j : Instr} (row : CommandRow s.cfg.codes n c j) (h : exec j s = .next t)
    (mac : j = .scmdSendMac n → Raises s i n s.cfg.codes.intSendOk)
    (keep : j = .scmdSendKeep n → Raises s i n s.cfg.codes.intTimeout) : Moves s i t := by
  cases row with
  | none => exact exec_scmdNone_next h ▸ .refl s i
  | discon => exact .startClose _ (.inl rfl) h
  | close => exact .startClose _ (.inr rfl) h
  | opens => exact .dispatched h .openByMode
  | listen => exact .dispatched h fun idle => .guarded idle (commandEffect_listenRule n s) .listens
  | connect => exact .dispatched h fun idle => .guarded idle (commandEffect_connectRule n s) (.connects _)
  | send => exact .sendRule (dispatch_next h).2.1 (dispatch_next h).2.2
  | sendMac => exact .dispatched h fun idle => .sendMacRule idle (mac rfl)
  | sendKeep => exact .dispatched h fun idle => .sendKeepRule idle (keep rfl)
  | recv => exact .dispatched h .recvRule
  | unrecognised => exact .dispatched (rule := (State.ignoreCommand · n)) h .ignored

theorem Moves.commandWrite {c : Byte} (h : Machine.commandWrite n c s = .next t)
    (mac : c = s.cfg.codes.cmdSendMac → Raises s i n s.cfg.codes.intSendOk)
    (keep : c = s.cfg.codes.cmdSendKeep → Raises s i n s.cfg.codes.intTimeout) : Moves s i t := by
  rw [commandWrite_eq_exec] at h
  refine (commandRow_decodeScmd s.cfg.codes n c).moves h (fun row => ?_) fun row => ?_
  all_goals
    have named := commandRow_decodeScmd s.cfg.codes n c
    rw [row] at named
    cases named
  · exact mac ‹_›
  · exact keep ‹_›

/-! ## Bus writes (R152 to R156) -/

/-- What an arm of R152 with a command byte or `C.MR` says of the address. -/
def StandsAt (m : Config.AddressMap) (a : Nat) : Loc → Prop
  | .cMr => a = m.cMr
  | .sCr n => a = sockAddr m n m.oCr
  | _ => True

theorem StandsAt.orElse {m : Config.AddressMap} {a : Nat} {x y : Loc} (hx : StandsAt m a x) (hy : StandsAt m a y) :
    StandsAt m a (x.orElse y) := by
  cases x with
  | plain => exact hy
  | _ => exact hx

theorem standsAt_anySocket {m : Config.AddressMap} {a : Nat} {arm : SockId → Loc} (h : ∀ n, StandsAt m a (arm n)) :
    StandsAt m a (anySocket arm) :=
  (((h 0).orElse (h 1)).orElse (h 2)).orElse (h 3)

theorem locate_standsAt (m : Config.AddressMap) (a : Nat) : StandsAt m a (locate m a) := by
  have command (n : SockId) : StandsAt m a (commandLoc m a n) := by
    unfold commandLoc
    split
    · assumption
    · trivial
  have interrupt (n : SockId) : StandsAt m a (interruptLoc m a n) := by
    unfold interruptLoc
    split <;> trivial
  have device (n : SockId) : StandsAt m a (deviceLoc m a n) := by
    unfold deviceLoc
    repeat' split
    all_goals trivial
  have commit (n : SockId) : StandsAt m a (commitLoc m a n) := by
    unfold commitLoc
    repeat' split
    all_goals trivial
  unfold locate
  split_ifs with _ mr
  · trivial
  · exact mr
  · trivial
  · exact ((standsAt_anySocket command).orElse (standsAt_anySocket interrupt)).orElse
      ((standsAt_anySocket device).orElse (standsAt_anySocket commit))

/-- A byte stored at no command byte. -/
theorem Moves.poke {a : Nat} {v : Byte} (apart : s.cfg.Tabled → ∀ m, blockAddr m 0x01 ≠ a) :
    Moves s i (s.poke a v) := by
  have same : (s.poke a v).socks = (s.setSock 0 (s.sock 0)).socks := by rw [State.setSock_sock, State.poke_socks]
  exact .of_step (n := 0) .same (.kept same rfl rfl fun h m => by rw [State.load_poke, if_neg (apart h m)])

theorem Moves.ackInt (v : Byte) : Moves s i (s.ackInt n v) :=
  .of_step (.acknowledged v) (.kept rfl rfl rfl fun _ _ => rfl)

theorem blockAddr_ne_cMr {c : Config.Params} (h : c.Tabled) (n : SockId) (off : Nat) : blockAddr n off ≠ c.map.cMr := by
  rw [h.map]
  exact (ne_blockAddr 0x0000 (by omega) n off).symm

/-- A command byte is no cursor byte. -/
theorem blockAddr_ne_sockAddr (h : s.cfg.Tabled) (n m : SockId) (off off' : Nat) (lt : off < 0x100) (lt' : off' < 0x100)
    (other : off ≠ off') : blockAddr m off ≠ sockAddr s.cfg.map n off' := by
  rw [h.map, sockAddr_tabled]
  exact mt (blockAddr_inj m n off off' lt lt').mp fun both => other both.2

theorem Moves.commitTxWr (v : Byte) : Moves s i (s.commitTxWr n v) := by
  refine .of_step (.txCommitted _) (.kept rfl rfl rfl fun h m => ?_)
  have apart : blockAddr m 0x01 ≠ sockAddr s.cfg.map n (s.cfg.map.oTxWr + 1) := by
    rw [show s.cfg.map.oTxWr + 1 = 0x25 by rw [h.map]; rfl]
    exact blockAddr_ne_sockAddr h n m _ _ (by omega) (by omega) (by omega)
  exact (State.load_poke _ _ _ _).trans (if_neg apart)

theorem Moves.commitRxRd {v : Byte} (h : s.commitRxRd n v = .next t) : Moves s i t := by
  unfold State.commitRxRd at h
  extract_lets p u at h
  split at h
  case isTrue => cases h
  case isFalse within =>
    cases h
    refine .of_step (.rxCommitted p (Nat.le_of_not_lt within)) (.kept rfl rfl rfl fun h m => ?_)
    have apart : blockAddr m 0x01 ≠ sockAddr s.cfg.map n (s.cfg.map.oRxRd + 1) := by
      rw [show s.cfg.map.oRxRd + 1 = 0x29 by rw [h.map]; rfl]
      exact blockAddr_ne_sockAddr h n m _ _ (by omega) (by omega) (by omega)
    exact (State.load_poke _ _ _ _).trans (if_neg apart)

/-- Reset records, and cleared command bytes in the tabled layout. -/
theorem AllReset.of_tabled (records : ∀ n, t.sock n = Sock.reset) (cfg : t.cfg = s.cfg)
    (tokens : t.nextHandle = s.nextHandle) (bytes : s.cfg.Tabled → ∀ n, t.load (blockAddr n 0x01) = 0x00) :
    AllReset s t where
  records := records
  commands h n := by
    rw [t.sCr_tabled (cfg ▸ h)]
    exact bytes h n
  tokens := tokens
  cfg := cfg

theorem allReset_softReset (s : State) : AllReset s s.softReset :=
  .of_tabled s.softReset_sock s.softReset_cfg s.softReset_nextHandle fun h n =>
    (softResetEffect_softReset s h).sockBytes n 0x01 (by decide)

theorem Moves.writeCMr {v : Byte} (reset : v.getLsbD 7 = true → resets s i = true) : Moves s i (s.writeCMr v) := by
  unfold State.writeCMr
  split
  case isTrue high => exact .inr ⟨reset high, allReset_softReset s⟩
  case isFalse => exact .poke fun h m => blockAddr_ne_cMr h m _

/-- What a write of `c` to the command byte of socket n may raise, if it stands in the table under this instruction. -/
theorem raises_of_commandRaises {c : Byte}
    (row : ∀ b, commandRaises s.cfg.codes c b = true → mayRaise s i n b = true) :
    (c = s.cfg.codes.cmdSendMac → Raises s i n s.cfg.codes.intSendOk)
      ∧ (c = s.cfg.codes.cmdSendKeep → Raises s i n s.cfg.codes.intTimeout) :=
  ⟨fun code b set => row b (by simp [commandRaises, code, set]),
    fun code b set => row b (by simp [commandRaises, code, set])⟩

theorem Moves.busWrite {addr : Half} {v : Byte} (h : Machine.busWrite addr v s = .next t) : Moves s (.wr addr v) t := by
  cases alive : s.alive with
  | false => rw [Machine.busWrite, whenAlive_dead s _ alive] at h; cases h
  | true =>
    rw [Machine.busWrite, whenAlive_alive s _ alive] at h
    have stands := locate_standsAt s.cfg.map (busAddr s.cfg.map addr)
    split at h
    case h_1 | h_3 | h_6 => cases h; exact .refl s _
    case h_2 loc =>
      cases h
      rw [loc] at stands
      exact .writeCMr fun high => by simp [resets, high, show busAddr s.cfg.map addr = s.cfg.map.cMr from stands]
    case h_4 n loc =>
      rw [loc] at stands
      have at_command : busAddr s.cfg.map addr = sockAddr s.cfg.map n s.cfg.map.oCr := stands
      have raises := raises_of_commandRaises (s := s) (i := .wr addr v) (n := n) (c := v) fun b row => by
        simp [mayRaise, at_command, row]
      exact .commandWrite h raises.1 raises.2
    case h_5 n loc => cases h; exact .ackInt v
    case h_7 n loc => cases h; exact .commitTxWr v
    case h_8 n loc => exact .commitRxRd h
    case h_9 loc =>
      cases h
      refine .poke fun h m same => ?_
      rw [← same, h.map, locate_blockAddr m 0x01 (by omega)] at loc
      cases loc

/-! ## Completions (R243 to R247) -/

/-- A record replaced and the command byte cleared, with what a completion charges. -/
theorem RecordStep.charged (s : State) (n : SockId) (k : Sock) (reqs : List NetReq) (tokens pulses frees : Nat) :
    RecordStep n k (some 0x00) tokens s (((s.charged reqs tokens pulses frees).setSock n k).setCr n 0x00) :=
  .stored rfl rfl rfl fun _ _ => rfl

theorem Moves.bindDone (r : BindAnswer) (binding : (s.sock n).op = .udpBind)
    (raises : Raises s i n s.cfg.codes.intTimeout) : Moves s i (Machine.bindDone n r s) := by
  cases r with
  | ok => rw [bindDone_ok]; exact .of_step (.bound binding) (.charged ..)
  | fail => rw [bindDone_fail]; exact .of_step (.timedOut (.inl binding) raises) (.charged ..)
  | failPermission => rw [bindDone_failPermission]; exact .of_step (.timedOut (.inl binding) raises) (.charged ..)

theorem Moves.listenDone (r : AcceptAnswer) (draw : ListenDraw) (listening : (s.sock n).op = .listen)
    (outside : isAccess i = false) (con : Raises s i n s.cfg.codes.intCon)
    (timeout : Raises s i n s.cfg.codes.intTimeout) :
    Moves s i (Machine.listenDone n r draw s) := by
  cases r with
  | accepted => rw [listenDone_accepted]; exact .of_step (.accepted draw.keeps listening outside con) (.charged ..)
  | fail => rw [listenDone_fail]; exact .of_step (.unheard draw.keeps listening timeout) (.charged ..)
  | failPermission =>
    rw [listenDone_failPermission]
    exact .of_step (.unheard draw.keeps listening timeout) (.charged ..)

theorem Moves.connectDone (ms : Nat) (r : ConnectAnswer) (connecting : (s.sock n).op = .connect ms)
    (outside : isAccess i = false) (con : Raises s i n s.cfg.codes.intCon)
    (timeout : Raises s i n s.cfg.codes.intTimeout) :
    Moves s i (Machine.connectDone n ms r s) := by
  by_cases loopback : s.selfLoopback n = true
  · rw [connectDone_loopback n ms r s loopback]
    exact .of_step (.timedOut (.inr ⟨ms, connecting⟩) timeout) (.charged ..)
  · cases r with
    | connected =>
      rw [connectDone_connected n ms s loopback]
      exact .of_step (.connected ms connecting outside con) (.charged ..)
    | fail =>
      rw [connectDone_fail n ms s loopback]
      exact .of_step (.timedOut (.inr ⟨ms, connecting⟩) timeout) (.charged ..)

/-- Handing a SEND on changes the side structures and the requests only. -/
theorem sendRoute_rest (n : SockId) (data : List Byte) (ok : Bool) (s : State) :
    (sendRoute n data ok s).1 = { s with
      dhcp := (sendRoute n data ok s).1.dhcp, pings := (sendRoute n data ok s).1.pings
      netLog := (sendRoute n data ok s).1.netLog } := by
  simp only [sendRoute]
  repeat' split
  case _ => rfl
  case _ => rfl
  case _ => rw [dhcpInput_rest]
  case _ => rfl
  case _ => rfl
  case _ => rfl
  case _ => rw [icmpInput_rest]

/-- A failed SEND with its handle, if it has one, dropped. -/
theorem sendEnd_failedOutside (codes : Config.Codes) (u : State) :
    sendEnd n false codes u .failedOutside =
      ((u.askAll ((u.sock n).conn.toList.map NetReq.close)).setSock n
        { (u.sock n).drainedWith codes.intTimeout with conn := none }).setCr n 0x00 := by
  show ((((u.releaseTx n).raiseInt n codes.intTimeout).dropConn n).finishOp n) = _
  rw [State.raiseInt_releaseTx, State.dropConn_eq, State.sock_setSock_same, State.setSock_setSock]
  exact State.finishOp_setSock (u.askAll _) n _

/-- The end of a SEND in a state with the records, bytes and tokens of `s`. -/
theorem Moves.sendEnd (keep : Bool) {u : State} (fate : SendFate) (socks : u.socks = s.socks) (mem : u.mem = s.mem)
    (cfg : u.cfg = s.cfg) (next : u.nextHandle = s.nextHandle) (sending : (s.sock n).op = .send)
    (transfer : transfers (s.sock n).status = true) (ok : Raises s i n s.cfg.codes.intSendOk)
    (timeout : Raises s i n s.cfg.codes.intTimeout) : Moves s i (Machine.sendEnd n keep s.cfg.codes u fate) := by
  have record : u.sock n = s.sock n := by rw [State.sock, socks]; rfl
  have ends (v : State) (conn : Option Handle) (int : Byte) (handle : conn = (s.sock n).conn ∨ conn = none)
      (mask : int = s.cfg.codes.intSendOk ∨ int = s.cfg.codes.intTimeout) (raises : Raises s i n int)
      (same : v = { u with netLog := v.netLog }) :
      Moves s i ((v.setSock n { (s.sock n).drainedWith int with conn := conn }).setCr n 0x00) := by
    refine .of_step (.sent conn int sending transfer handle mask raises) (.stored ?_ ?_ ?_ fun _ _ => ?_)
    all_goals rw [same]
    · simp [State.setSock, socks]
    · exact cfg
    · exact next
    · simp [State.setCr, State.poke, State.load, mem, cfg]
  cases fate with
  | sent => rw [sendEnd_sent, record]; exact ends u _ _ (.inl rfl) (.inl rfl) ok rfl
  | failedInside => rw [sendEnd_failedInside, record]; exact ends u _ _ (.inl rfl) (.inr rfl) timeout rfl
  | failedOutside =>
    cases keep with
    | true => rw [sendEnd_kept, record]; exact ends u _ _ (.inl rfl) (.inr rfl) timeout rfl
    | false => rw [sendEnd_failedOutside, record]; exact ends _ none _ (.inr rfl) (.inr rfl) timeout rfl

theorem Moves.sendDone (ok keep : Bool) (sending : (s.sock n).op = .send)
    (transfer : transfers (s.sock n).status = true) (done : Raises s i n s.cfg.codes.intSendOk)
    (timeout : Raises s i n s.cfg.codes.intTimeout) :
    Moves s i (Machine.sendDone n ok keep s) := by
  rw [sendDone_eq]
  have rest := sendRoute_rest n (s.drained n) ok (s.charged [] 0 0 (s.sendFrees n))
  refine .sendEnd keep _ ?_ ?_ ?_ ?_ sending transfer done timeout
  all_goals rw [rest]; rfl

theorem Moves.closeDone (had : Bool) (closing : (s.sock n).op = .close had)
    (raises : Raises s (.ctlCloseDone n) n s.cfg.codes.intDiscon) :
    Moves s (.ctlCloseDone n) (Machine.closeDone n had s) := by
  rw [closeDone_eq, State.releasePort_eq]
  exact .of_step (.closed had closing rfl raises) (.stored rfl rfl rfl fun _ _ => rfl)

/-! ## Receives (R249 to R253, R310, R345) -/

/-- `RxCommit` in a state `u` with the records, bytes and tokens of `s`. -/
theorem Moves.rxCommit {u : State} (bytes : List Byte) (socks : u.socks = s.socks) (mem : u.mem = s.mem)
    (cfg : u.cfg = s.cfg) (next : u.nextHandle = s.nextHandle) (outside : isAccess i = false)
    (room : s.Inv → bytes.length ≤ s.rxFree n) (raises : Raises s i n s.cfg.codes.intRecv) :
    Moves s i (u.rxCommit n bytes) := by
  have record : u.sock n = s.sock n := by rw [State.sock, socks]; rfl
  have written : (u.rxCommit n bytes).socks =
      (u.setSock n { u.sock n with
        rxWr := (u.sock n).rxWr + BitVec.ofNat 16 bytes.length, recvEnabled := false
        ir := (u.sock n).ir ||| u.cfg.codes.intRecv }).socks := by
    simp only [State.rxCommit, State.raiseInt_setSock]
    rfl
  refine .of_step (.received bytes.length outside room raises) (.kept ?_ cfg next fun h m => ?_)
  · rw [written, record, cfg, State.setSock, socks]
    rfl
  · have below : blockAddr m 0x01 < u.cfg.map.rxBankBase := by
      have lt : m.val < 4 := m.isLt
      rw [cfg, h.map]
      show 0x0400 + 0x0100 * m.val + 0x01 < 0x6000
      omega
    rw [load_rxCommit_below n bytes u _ below, State.load, mem]
    rfl

/-- The request of a receive changes the requests only. -/
theorem State.askReceive_rest (s : State) (n : SockId) :
    s.askReceive n = { s with netLog := (s.askReceive n).netLog } := by
  unfold State.askReceive
  split
  · rfl
  · split <;> rfl

/-- A receive that was asked for. -/
theorem Moves.received (bytes : List Byte) (outside : isAccess i = false) (room : bytes.length ≤ s.rxFree n)
    (raises : Raises s i n s.cfg.codes.intRecv) : Moves s i ((s.askReceive n).rxCommit n bytes) := by
  rw [State.askReceive_rest]
  exact .rxCommit bytes rfl rfl rfl rfl outside (fun _ => room) raises

theorem Moves.rxTcpRule (avail : List Byte) (k : Nat) (outside : isAccess i = false)
    (raises : Raises s i n s.cfg.codes.intRecv) : Moves s i (Machine.rxTcpRule n avail k s) := by
  unfold Machine.rxTcpRule
  split
  case isTrue guard =>
    simp only [Bool.and_eq_true, decide_eq_true_eq] at guard
    exact .received _ outside ((List.length_take_le k avail).trans guard.2) raises
  case isFalse => exact .refl s i

theorem Moves.rxUdpRule (ip : Quad) (port : Half) (payload : List Byte) (outside : isAccess i = false)
    (raises : Raises s i n s.cfg.codes.intRecv) : Moves s i (Machine.rxUdpRule n ip port payload s) := by
  unfold Machine.rxUdpRule
  split
  case isTrue guard =>
    simp only [Bool.and_eq_true, decide_eq_true_eq] at guard
    exact .received (datagram ip port payload (s.rxFree n)) outside
      (length_datagram_le ip port payload _ guard.2) raises
  case isFalse => exact .refl s i

theorem Moves.rxEofRule (outside : isAccess i = false) : Moves s i (Machine.rxEofRule n s) := by
  unfold Machine.rxEofRule
  split
  case isTrue guard =>
    simp only [State.armed, Bool.and_eq_true, beq_iff_eq] at guard
    obtain ⟨⟨⟨-, established⟩, -⟩, -⟩ := guard
    rw [State.askReceive_rest]
    exact .of_step (.ended established outside) (.stored rfl rfl rfl fun _ _ => rfl)
  case isFalse => exact .refl s i

theorem Moves.rxErrorRule (keep : Bool) (raises : Raises s i n s.cfg.codes.intTimeout) :
    Moves s i (Machine.rxErrorRule n keep s) := by
  by_cases armed : s.armed n .established = true ∨ s.armed n .udp = true
  · have handle : (s.sock n).conn ≠ none := by
      rcases armed with armed | armed <;> exact ((s.armed_iff n _).mp armed).2.2
    obtain ⟨h, conn⟩ := Option.ne_none_iff_exists'.mp handle
    rw [rxErrorRule_enabled n keep s armed h conn]
    refine .of_step (.receiveFailed (if keep = true then some h else none) ?_ raises) (.kept rfl rfl rfl fun _ _ => rfl)
    cases keep with
    | true => exact .inl conn.symm
    | false => exact .inr rfl
  · have disabled : (s.armed n .established || s.armed n .udp) ≠ true := by simpa using armed
    rw [Machine.rxErrorRule, if_neg disabled]
    exact .refl s i

/-- A frame that is delivered fits the room its guard asks for. -/
theorem length_delivery_le {x : DhcpExchange} (may : mayDeliver n x s = true)
    (fits : exchangeFits s.cfg.dhcpFrameLen x = true) :
    (deliveryHeader s.cfg x ++ x.buf).length ≤ s.rxFree n := by
  obtain ⟨-, -, -, -, -, room⟩ := (mayDeliver_iff n x s).mp may
  simp only [exchangeFits, Bool.and_eq_true, beq_iff_eq] at fits
  rw [List.length_append, fits.1]
  exact room

/-- A reply that is delivered is as long as its request, which its guard asks room for. -/
theorem length_delivered_reply_le {g : Ping} (room : s.cfg.iprawInfoHdr + g.payload.length ≤ s.rxFree n)
    (fits : pingFits g = true) (used len : Nat) :
    (iprawHeader s.cfg used g.target len ++ echoReply g.payload).length ≤ s.rxFree n := by
  simp only [pingFits, isEchoRequest, Bool.and_eq_true, decide_eq_true_eq] at fits
  obtain ⟨⟨⟨long, -⟩, -⟩, -⟩ := fits
  rw [List.length_append, length_iprawHeader, length_echoReply _ (by omega)]
  exact room

theorem Moves.deliverRule (outside : isAccess i = false) (raises : Raises s i n s.cfg.codes.intRecv) :
    Moves s i (Machine.deliverRule n s) := by
  by_cases may : ∃ x, s.dhcp = some x ∧ mayDeliver n x s = true
  · obtain ⟨x, held, may⟩ := may
    rw [deliverRule_delivers n x s held may]
    exact .rxCommit _ rfl rfl rfl rfl outside (fun inv => length_delivery_le may (inv.dhcp x held)) raises
  · rw [deliverRule_withholds n s fun x held ok => may ⟨x, held, ok⟩]
    exact .refl s i

theorem Moves.rxIprawRule (outside : isAccess i = false) (raises : Raises s i n s.cfg.codes.intRecv) :
    Moves s i (Machine.rxIprawRule n s) := by
  unfold Machine.rxIprawRule
  split
  case isFalse => exact .refl s i
  case isTrue =>
    split
    case h_1 => exact .refl s i
    case h_2 g rest taken =>
      split
      case isFalse => exact .refl s i
      case isTrue room =>
        obtain ⟨pre, post, whole, -, -, -⟩ := takeReached_eq_some taken
        rw [← State.rxCommit_answered]
        exact .rxCommit _ rfl rfl rfl rfl outside
          (fun inv => length_delivered_reply_le room (inv.pings g (by simp [whole])) _ _) raises

/-! ## Resets (R440 to R445) -/

theorem AllReset.withFa (e : AllReset s t) (f : Facade) : AllReset s (t.withFa f) :=
  ⟨e.records, e.commands, e.tokens, e.cfg⟩

theorem allReset_lifeSoft (s : State) : AllReset s s.lifeSoft := (allReset_softReset s).withFa _

theorem allReset_coldOn (s : State) : AllReset s s.coldOn :=
  have e := (allReset_softReset { s with mem := [] }).withFa (Facade.reset ({ s with mem := [] } : State).softReset.now)
  ⟨e.records, e.commands, e.tokens, e.cfg⟩

theorem allReset_powerOff (s : State) : AllReset s s.powerOff :=
  .of_tabled s.sock_powerOff (by rw [State.powerOff_rest]) (by rw [State.powerOff_rest]) fun h n => s.load_powerOff h _

theorem allReset_destroy (s : State) : AllReset s s.destroy := by
  refine .of_tabled s.sock_destroy (by rw [State.destroy_rest]) (by rw [State.destroy_rest]) fun h n => ?_
  rw [load_destroy_elsewhere s h _ (blockAddr_not_destroyAddrs n _), if_pos ⟨n, 0x01, by decide, rfl⟩]

/-! ## Every instruction -/

/-- A step of the environment or of a responder: it answers one state, a live block's being `u`. -/
theorem Moves.of_next {u : State} (h : (.next (if s.alive = true then u else s) : Result) = .next t)
    (move : Moves s i u) : Moves s i t := by
  cases h
  split
  · exact move
  · exact .refl s i

theorem Moves.of_whenAlive {r : Result} (h : whenAlive s r = .next t) (move : r = .next t → Moves s i t) :
    Moves s i t := by
  unfold whenAlive at h
  split at h
  · exact move h
  · cases h

/-- An access that answers a state with the same records, bytes and tokens. -/
theorem Moves.of_access {u : State} (h : whenAlive s (.next u) = .next t) (move : Moves s i u) : Moves s i t :=
  .of_whenAlive h fun e => by cases e; exact move

theorem Moves.ctlUdpbindDone (r : BindAnswer) (h : exec (.ctlUdpbindDone n r) s = .next t) (alive : s.alive = true) :
    Moves s (.ctlUdpbindDone n r) t := by
  by_cases binding : (s.sock n).op = .udpBind
  · cases (exec_ctlUdpbindDone_binding n r s alive binding).symm.trans h
    exact .bindDone r binding fun b set => by simp [mayRaise, set]
  · cases (exec_ctlUdpbindDone_other n r s binding).symm.trans h
    exact .refl s _

theorem Moves.ctlListenDone (r : AcceptAnswer) (draw : ListenDraw) (h : exec (.ctlListenDone n r draw) s = .next t)
    (alive : s.alive = true) : Moves s (.ctlListenDone n r draw) t := by
  by_cases listening : (s.sock n).op = .listen
  · cases (exec_ctlListenDone_listening n r draw s alive listening).symm.trans h
    exact .listenDone r draw listening rfl (fun b set => by simp [mayRaise, set]) (fun b set => by simp [mayRaise, set])
  · cases (exec_ctlListenDone_other n r draw s listening).symm.trans h
    exact .refl s _

theorem Moves.ctlConnectDone (r : ConnectAnswer) (h : exec (.ctlConnectDone n r) s = .next t) (alive : s.alive = true) :
    Moves s (.ctlConnectDone n r) t := by
  by_cases connecting : ∃ ms, (s.sock n).op = .connect ms
  · obtain ⟨ms, connecting⟩ := connecting
    cases (exec_ctlConnectDone_connecting n r ms s alive connecting).symm.trans h
    exact .connectDone ms r connecting rfl (fun b set => by simp [mayRaise, set]) (fun b set => by simp [mayRaise, set])
  · cases (exec_ctlConnectDone_other n r s (not_exists.mp connecting)).symm.trans h
    exact .refl s _

theorem Moves.ctlSendDone (ok keep : Bool) (h : exec (.ctlSendDone n ok keep) s = .next t) (alive : s.alive = true) :
    Moves s (.ctlSendDone n ok keep) t := by
  by_cases sending : (s.sock n).op = .send ∧ transfers (s.sock n).status = true
  · cases (exec_ctlSendDone_sending n ok keep s alive sending.1 sending.2).symm.trans h
    exact .sendDone ok keep sending.1 sending.2 (fun b set => by simp [mayRaise, set])
      fun b set => by simp [mayRaise, set]
  · have disabled : (s.alive && (s.sock n).op == .send && transfers (s.sock n).status) ≠ true := by
      simpa [alive] using sending
    cases (congrArg Host.Outcome.next (if_neg disabled) : exec (.ctlSendDone n ok keep) s = .next s).symm.trans h
    exact .refl s _

theorem Moves.ctlCloseDone (h : exec (.ctlCloseDone n) s = .next t) (alive : s.alive = true) :
    Moves s (.ctlCloseDone n) t := by
  by_cases closing : ∃ had, (s.sock n).op = .close had
  · obtain ⟨had, closing⟩ := closing
    cases (exec_ctlCloseDone_close n had s alive closing).symm.trans h
    exact .closeDone had closing fun b set => by simp [mayRaise, set]
  · cases (exec_ctlCloseDone_other n s (not_exists.mp closing)).symm.trans h
    exact .refl s _

theorem probeRule_rest (p : Nat) (r : Bool) (s : State) :
    Machine.probeRule p r s = { s with
      pings := (Machine.probeRule p r s).pings, netLog := (Machine.probeRule p r s).netLog } := by
  cases found : s.pings[p]? with
  | none => rw [probeRule_absent p r s (by simpa using found)]
  | some g =>
    rw [probeRule_found p r s g found]
    split <;> rfl

theorem pingExpireRule_rest (p : Nat) (s : State) :
    Machine.pingExpireRule p s = { s with pings := (Machine.pingExpireRule p s).pings } := by
  cases found : s.pings[p]? with
  | none => rw [pingExpireRule_absent p s (by simpa using found)]
  | some g =>
    rw [pingExpireRule_found p s g found]
    split <;> rfl

theorem expireRule_rest (s : State) : expireRule s = { s with dhcp := (expireRule s).dhcp } := by
  unfold expireRule
  split
  · split <;> rfl
  · rfl

theorem Moves.fWrip (slot : Byte) (ip : Quad) (h : exec (.fWrip slot ip) s = .next t) : Moves s i t := by
  refine .of_whenAlive h fun e => ?_
  simp only at e
  split at e
  all_goals
    cases e
    exact .untouched rfl rfl rfl rfl

theorem Moves.fRdip (slot : Byte) (h : exec (.fRdip slot) s = .next t) : Moves s i t := by
  refine .of_whenAlive h fun e => ?_
  split at e
  all_goals
    cases e
    exact .untouched rfl rfl rfl rfl

theorem Moves.fPortno (h : exec .fPortno s = .next t) : Moves s i t := by
  refine .of_whenAlive h fun e => ?_
  split at e
  · cases e
    exact .untouched rfl rfl rfl rfl
  · cases e

/-- A destroyed block does not change. -/
theorem exec_next_dead (dead : s.alive = false) (h : exec i s = .next t) : s = t := by
  rw [exec_dead i s dead] at h
  split at h
  · cases h
  · exact Host.Outcome.next.inj h

/-- Every instruction but a facade block write makes a move of the list, or resets all sockets. -/
theorem exec_moves (i : Instr) (h : exec i s = .next t) (noBlock : ∀ data, i ≠ .fWrbytes data) : Moves s i t := by
  cases alive : s.alive with
  | false => exact exec_next_dead alive h ▸ .refl s i
  | true =>
    cases i with
    | rd a => exact .of_access h (.untouched rfl rfl rfl rfl)
    | wr a d => exact .busWrite h
    | wrCMr d => exact .of_access h (.writeCMr id)
    | wrCIr d => exact .of_access h (.refl s _)
    | wrSnCr n c =>
      have raises := raises_of_commandRaises (s := s) (i := .wrSnCr n c) (n := n) (c := c) fun b row => by
        simp [mayRaise, row]
      exact .of_whenAlive h fun e => .commandWrite e raises.1 raises.2
    | wrSnIr n v => exact .of_access h (.ackInt v)
    | wrSnSr n d => exact .of_access h (.refl s _)
    | wrSnTxWrLo n d => exact .of_access h (.commitTxWr d)
    | wrSnRxRdLo n d => exact .of_whenAlive h .commitRxRd
    | scmdSendMac m =>
      exact (CommandRow.sendMac rfl).moves h (fun _ b set => by simp [mayRaise, set]) nofun
    | scmdSendKeep m =>
      exact (CommandRow.sendKeep rfl).moves h nofun (fun _ b set => by simp [mayRaise, set])
    | scmdNone m => exact (CommandRow.none (c := 0)).moves h nofun nofun
    | scmdOpen m => exact (CommandRow.opens (c := 0)).moves h nofun nofun
    | scmdListen m => exact (CommandRow.listen (c := 0)).moves h nofun nofun
    | scmdConnect m => exact (CommandRow.connect (c := 0)).moves h nofun nofun
    | scmdDiscon m => exact (CommandRow.discon (c := 0)).moves h nofun nofun
    | scmdClose m => exact (CommandRow.close (c := 0)).moves h nofun nofun
    | scmdSend m => exact (CommandRow.send (c := 0)).moves h nofun nofun
    | scmdRecv m => exact (CommandRow.recv (c := 0)).moves h nofun nofun
    | scmdUnrecognised m c => exact CommandRow.unrecognised.moves h nofun nofun
    | smodeTcp m hi => exact .dispatched (rule := Machine.openTcp m) h .openTcp
    | smodeUdp m hi => exact .dispatched (rule := Machine.openUdp m) h .openUdp
    | smodeIpraw m hi => exact .dispatched (rule := Machine.openIpraw m) h .openIpraw
    | smodeMacraw m hi | smodePppoe m hi | smodeOther m hi p =>
      exact .dispatched (rule := openUnsupported m) h .ignored
    | ctlUdpbindDone m r => exact .ctlUdpbindDone r h alive
    | ctlListenDone m r draw => exact .ctlListenDone r draw h alive
    | ctlConnectDone m r => exact .ctlConnectDone r h alive
    | ctlSendDone m ok keep => exact .ctlSendDone ok keep h alive
    | ctlCloseDone m => exact .ctlCloseDone h alive
    | rxTcp m avail k => exact .of_next h (.rxTcpRule avail k rfl fun b set => by simp [mayRaise, set])
    | rxUdp m ip port payload => exact .of_next h (.rxUdpRule ip port payload rfl fun b set => by simp [mayRaise, set])
    | rxEof m => exact .of_next h (.rxEofRule rfl)
    | rxError m keep => exact .of_next h (.rxErrorRule keep fun b set => by simp [mayRaise, set])
    | rxDhcpDeliver m => exact .of_next h (.deliverRule rfl fun b set => by simp [mayRaise, set])
    | rxIpraw m => exact .of_next h (.rxIprawRule rfl fun b set => by simp [mayRaise, set])
    | probeDone p r => exact .of_next h (probeRule_rest p r s ▸ .untouched rfl rfl rfl rfl)
    | pingExpire p => exact .of_next h (pingExpireRule_rest p s ▸ .untouched rfl rfl rfl rfl)
    | dhcpExpire => exact .of_next h (expireRule_rest s ▸ .untouched rfl rfl rfl rfl)
    | dhcpDiscover m f => exact .of_next h (discoverRule_rest m f s ▸ .untouched rfl rfl rfl rfl)
    | dhcpRequest m f => exact .of_next h (requestRule_rest m f s ▸ .untouched rfl rfl rfl rfl)
    | icmpEchoRequest m payload => exact .of_next h (.untouched rfl rfl rfl rfl)
    | dhcpOther | dhcpInvalid | icmpOther =>
      cases h
      exact .refl s _
    | fWrbytes data => exact absurd rfl (noBlock data)
    | fRdbytes | fSetaddr | fGetaddr | fRdtimer | fSwver | fHwver | fLink | fId | fErrcnt | fUnknown =>
      exact .of_access h (.untouched rfl rfl rfl rfl)
    | fWrip slot ip => exact .fWrip slot ip h
    | fRdip slot => exact .fRdip slot h
    | fPortno => exact .fPortno h
    | lifeSoft => exact .of_next h (.inr ⟨rfl, allReset_lifeSoft s⟩)
    | lifeColdOn => exact .of_next h (.inr ⟨rfl, allReset_coldOn s⟩)
    | lifePowerOff => exact .of_next h (.inr ⟨rfl, allReset_powerOff s⟩)
    | lifeDestroy => exact .of_next h (.inr ⟨rfl, allReset_destroy s⟩)

end

end Sys2Proof.Machine
end

section
/-! SUPPORT. 40_register_access.md R152, 47_firmware_facade.md R364: what a bus write leaves alone, and a block write as
a chain of bus writes. -/
namespace Sys2Proof.Machine

open Sys2Proof

/-! ## The frame of a bus write -/

/-- Only records and stored bytes differ. -/
def OnlyWindow (s t : State) : Prop := t = { s with mem := t.mem, socks := t.socks }

theorem OnlyWindow.refl (s : State) : OnlyWindow s s := rfl

theorem OnlyWindow.trans {s t u : State} (h : OnlyWindow s t) (h' : OnlyWindow t u) : OnlyWindow s u := by
  rw [OnlyWindow, h', h]

section
variable {s t : State} {n : SockId}

theorem dispatch_onlyWindow {closing : Bool} {rule : State → Result} (h : dispatch closing n rule s = .next t)
    (only : ∀ u, rule u = .next t → OnlyWindow u t) : OnlyWindow s t := by
  obtain ⟨-, ⟨-, next⟩ | ⟨_, -, -, rfl⟩ | ⟨-, -, -, next⟩⟩ := dispatch_cases _ _ _ _ _ h
  · exact only s next
  · exact .refl t
  · exact .trans (t := s.setOp n .none) rfl (only _ next)

theorem dispatch_rule_onlyWindow {closing : Bool} {rule : State → State}
    (h : dispatch closing n (fun u => .next (rule u)) s = .next t) (only : ∀ u, OnlyWindow u (rule u)) :
    OnlyWindow s t :=
  dispatch_onlyWindow h fun u next => by cases next; exact only u

theorem openTcp_onlyWindow (n : SockId) (s : State) : OnlyWindow s (openTcp n s) := by
  unfold openTcp
  split <;> rfl

theorem openUdp_onlyWindow (n : SockId) (s : State) : OnlyWindow s (openUdp n s) := by
  unfold openUdp
  split <;> rfl

theorem openIpraw_onlyWindow (n : SockId) (s : State) : OnlyWindow s (openIpraw n s) := by
  unfold openIpraw
  split <;> rfl

theorem openByMode_onlyWindow (n : SockId) (s : State) : OnlyWindow s (openByMode n s) := by
  unfold openByMode
  split
  · exact openTcp_onlyWindow n s
  · exact openUdp_onlyWindow n s
  · exact openIpraw_onlyWindow n s
  · rfl

theorem startClose_onlyWindow (n : SockId) (v : Byte) (s : State) : OnlyWindow s (startClose n v s) := by
  simp only [startClose]
  split <;> rfl

theorem sendRule_onlyWindow (h : sendRule n s = .next t) : OnlyWindow s t := by
  unfold sendRule at h
  split at h
  · split at h
    · cases h
    · cases h
      rfl
  · cases h
    rfl

theorem CommandRow.onlyWindow {k : Config.Codes} {c : Byte} {j : Instr} (row : CommandRow k n c j)
    (h : exec j s = .next t) : OnlyWindow s t := by
  cases row with
  | none => exact exec_scmdNone_next h ▸ .refl s
  | discon => exact dispatch_rule_onlyWindow h (startClose_onlyWindow n _)
  | close => exact dispatch_rule_onlyWindow h (startClose_onlyWindow n _)
  | opens => exact dispatch_rule_onlyWindow h (openByMode_onlyWindow n)
  | listen => exact dispatch_rule_onlyWindow h fun u => by unfold listenRule; split <;> rfl
  | connect => exact dispatch_rule_onlyWindow h fun u => by unfold connectRule; split <;> rfl
  | send => exact dispatch_onlyWindow h fun u => sendRule_onlyWindow
  | sendMac => exact dispatch_rule_onlyWindow h fun u => by unfold sendMacRule; split <;> rfl
  | sendKeep => exact dispatch_rule_onlyWindow h fun u => by rw [sendKeepRule_eq]; split <;> rfl
  | recv => exact dispatch_rule_onlyWindow h fun u => by unfold recvRule; split <;> rfl
  | unrecognised => exact dispatch_rule_onlyWindow (rule := (State.ignoreCommand · n)) h fun u => rfl

theorem commandWrite_onlyWindow {c : Byte} (h : commandWrite n c s = .next t) : OnlyWindow s t := by
  rw [commandWrite_eq_exec] at h
  exact (commandRow_decodeScmd s.cfg.codes n c).onlyWindow h

theorem commitRxRd_onlyWindow {v : Byte} (h : s.commitRxRd n v = .next t) : OnlyWindow s t := by
  unfold State.commitRxRd at h
  extract_lets p u at h
  split at h
  · cases h
  · cases h
    rfl

/-- A bus write changes records and stored bytes, or is a soft reset. -/
theorem busWrite_frame {addr : Half} {v : Byte} (h : busWrite addr v s = .next t) :
    s.alive = true ∧ (OnlyWindow s t ∨ t = s.softReset) := by
  cases alive : s.alive with
  | false => rw [busWrite, whenAlive_dead s _ alive] at h; cases h
  | true =>
    refine ⟨rfl, ?_⟩
    rw [busWrite, whenAlive_alive s _ alive] at h
    split at h
    case h_1 | h_3 | h_6 => cases h; exact .inl (.refl s)
    case h_2 =>
      cases h
      unfold State.writeCMr
      split
      · exact .inr rfl
      · exact .inl rfl
    case h_4 => exact .inl (commandWrite_onlyWindow h)
    case h_5 | h_7 | h_9 => cases h; exact .inl rfl
    case h_8 => exact .inl (commitRxRd_onlyWindow h)

theorem busWrite_cfg {addr : Half} {v : Byte} (h : busWrite addr v s = .next t) : t.cfg = s.cfg := by
  obtain ⟨-, only | rfl⟩ := busWrite_frame h
  · rw [only]
  · exact s.softReset_cfg

/-! ## A block write (R364) -/

/-- One of the bus writes of a block write. -/
def WritesOne (c : Config.Params) (a : Half) (data : List Byte) (s t : State) : Prop :=
  s.cfg = c ∧ ∃ i < data.length, exec (.wr (a + BitVec.ofNat 16 i) (data.getD i 0)) s = .next t

/-- A block write is a chain of bus writes of its bytes. -/
theorem busWrites_chain (data : List Byte) (a : Half) (h : busWrites a data s = .next t) :
    Relation.ReflTransGen (WritesOne s.cfg a data) s t := by
  induction data generalizing a s with
  | nil =>
    cases h
    exact .refl
  | cons d ds ih =>
    rw [busWrites] at h
    split at h
    case h_1 u first =>
      have cfg : u.cfg = s.cfg := busWrite_cfg first
      have later := ih (a + 1) h
      refine .head ⟨rfl, 0, Nat.succ_pos _, ?_⟩ (Relation.ReflTransGen.mono (fun x y => ?_) _ _ later)
      · simpa using first
      · rintro ⟨same, i, lt, next⟩
        refine ⟨same.trans cfg, i + 1, Nat.succ_lt_succ lt, ?_⟩
        rwa [← add_one_add_ofNat]
    all_goals cases h

theorem exec_fWrbytes_next {data : List Byte} (h : exec (.fWrbytes data) s = .next t) :
    s.alive = true ∧ ∃ u, busWrites s.fa.addr data s = .next u ∧
      t = u.withFa ({ s.fa with out := [] }.afterData data) := by
  cases alive : s.alive with
  | false => rw [exec_dead _ s alive] at h; cases h
  | true =>
    refine ⟨rfl, ?_⟩
    rw [exec_fWrbytes_alive data s alive] at h
    cases written : busWrites s.fa.addr data s with
    | next u =>
      rw [written] at h
      exact ⟨u, rfl, (Host.Outcome.next.inj h).symm⟩
    | fault r => rw [written] at h; cases h
    | refused r => rw [written] at h; cases h

/-- A byte of the block write that meets the address with the property. -/
theorem blockWritePuts_of {a : Nat} {p : Byte → Bool} {data : List Byte} (i : Nat) (lt : i < data.length)
    (met : busAddr s.cfg.map (s.fa.addr + BitVec.ofNat 16 i) = a) (property : p (data.getD i 0) = true) :
    s.blockWritePuts data a p = true :=
  List.any_eq_true.mpr ⟨i, List.mem_range.mpr lt, by simpa [met] using property⟩

end

end Sys2Proof.Machine
end

section
/-! SUPPORT. 60_exceptions.md R401, R402; 42_socket_commands.md R212, R213: which bits an instruction raises, and along
which edges it moves a status. -/
namespace Sys2Proof.Machine

open Sys2Proof

section
variable {s t : State} {i : Instr} {n : SockId}

/-! ## Bits (R401) -/

/-- Of a raised mask, a bit that was not set before is a bit of the mask. -/
theorem Raises.bit {int ir : Byte} {b : Nat} (raises : Raises s i n int) (unset : ir.getLsbD b = false)
    (set : (ir ||| int).getLsbD b = true) : mayRaise s i n b = true :=
  raises b (by simpa [unset] using set)

theorem RecordMove.raises {k : Sock} {cr : Option Byte} {tokens b : Nat} (move : RecordMove s i n k cr tokens)
    (unset : (s.sock n).ir.getLsbD b = false) (set : k.ir.getLsbD b = true) : mayRaise s i n b = true := by
  have same (e : (s.sock n).ir.getLsbD b = true) : mayRaise s i n b = true := by rw [unset] at e; cases e
  cases move with
  | same | ignored | abandoned | txCommitted | rxCommitted | opened | listens | connects | closes | sends | arms | bound
  | ended => exact same set
  | acknowledged v => simp [unset] at set
  | releases _ raises | unkept _ raises | timedOut _ raises | unheard _ _ raises | accepted _ _ _ raises
  | connected _ _ _ raises | received _ _ _ raises | receiveFailed _ _ raises => exact raises.bit unset set
  | sent _ _ _ _ _ _ raises => exact raises.bit unset set
  | closed had _ _ raises =>
    cases had with
    | true => exact raises.bit unset set
    | false => exact same set

theorem Moves.raises {b : Nat} (moves : Moves s i t) (unset : (s.sock n).ir.getLsbD b = false)
    (set : (t.sock n).ir.getLsbD b = true) : mayRaise s i n b = true := by
  rcases moves with ⟨m, k, cr, tokens, move, step⟩ | ⟨-, reset⟩
  · by_cases here : n = m
    · subst here
      exact move.raises unset (step.record ▸ set)
    · rw [step.otherRecords n here, unset] at set
      cases set
  · rw [reset.records] at set
    simp [Sock.reset] at set

/-- Along a chain a bit that comes to be set is set by one of the steps. -/
theorem chain_raises {R : State → State → Prop} {b : Nat} (chain : Relation.ReflTransGen R s t)
    (unset : (s.sock n).ir.getLsbD b = false) (set : (t.sock n).ir.getLsbD b = true) :
    ∃ u v, R u v ∧ (u.sock n).ir.getLsbD b = false ∧ (v.sock n).ir.getLsbD b = true := by
  induction chain with
  | refl => rw [unset] at set; cases set
  | @tail u v _ last ih =>
    cases before : (u.sock n).ir.getLsbD b with
    | true => exact ih before
    | false => exact ⟨u, v, last, before, set⟩

/-- Settles O59: one instruction raises what its move raises, a block write what one of its bus writes does. -/
theorem onlyListedOperationsRaiseBits : Obligations.OnlyListedOperationsRaiseBits := by
  intro i s t n b h unset set
  by_cases block : ∃ data, i = .fWrbytes data
  · obtain ⟨data, rfl⟩ := block
    obtain ⟨-, u, written, rfl⟩ := exec_fWrbytes_next h
    obtain ⟨v, w, ⟨cfg, j, lt, one⟩, before, after⟩ := chain_raises (busWrites_chain data _ written) unset set
    have raised : mayRaise v _ n b = true := (exec_moves _ one nofun).raises before after
    simp only [mayRaise, Bool.and_eq_true, beq_iff_eq, cfg] at raised
    exact blockWritePuts_of (p := fun v => commandRaises s.cfg.codes v b) j lt raised.1 raised.2
  · exact (exec_moves i h (not_exists.mp block)).raises unset set

/-! ## Statuses (R212) -/

/-- The operation in flight says the status (R202 to R214). -/
theorem opFits_listen {x : Status} (h : opFits .listen x = true) : x = .listen := eq_of_beq h

theorem opFits_connect {x : Status} {ms : Nat} (h : opFits (.connect ms) x = true) : x = .init := eq_of_beq h

/-- Of every move: the status is kept, moved by a command, or moved by what is no access. -/
theorem RecordMove.status_cases {k : Sock} {cr : Option Byte} {tokens : Nat} (move : RecordMove s i n k cr tokens) :
    k.status = (s.sock n).status ∨ commandMove (s.sock n).status k.status = true
      ∨ (isAccess i = false ∧ ((k.status = .closed ∧ i = .ctlCloseDone n)
        ∨ (opFits (s.sock n).op (s.sock n).status = true →
            k.status ≠ .closed ∧ statusMove (s.sock n).status k.status = true))) := by
  cases move with
  | same | ignored | abandoned | acknowledged | txCommitted | rxCommitted | sends | connects | releases | unkept | arms
  | bound | timedOut | unheard | sent | received | receiveFailed => exact .inl rfl
  | opened x recv o cr closed arm =>
    simp only [List.mem_cons, Prod.mk.injEq, List.not_mem_nil, or_false] at arm
    rcases arm with ⟨rfl, -⟩ | ⟨rfl, -⟩ | ⟨rfl, -⟩ <;> exact .inr (.inl (by rw [closed]; rfl))
  | listens init => exact .inr (.inl (by rw [init]; rfl))
  | closes had v code notClosed =>
    show (if _ then _ else _) = _ ∨ commandMove _ (if _ then _ else _) = _ ∨ _
    cases status : (s.sock n).status <;> simp_all [commandMove]
  | accepted keeps listening outside =>
    refine .inr (.inr ⟨outside, .inr fun fits => ?_⟩)
    rw [listening] at fits
    exact ⟨nofun, by rw [opFits_listen fits]; rfl⟩
  | connected ms connecting outside =>
    refine .inr (.inr ⟨outside, .inr fun fits => ?_⟩)
    rw [connecting] at fits
    exact ⟨nofun, by rw [opFits_connect fits]; rfl⟩
  | ended established outside => exact .inr (.inr ⟨outside, .inr fun _ => ⟨nofun, by rw [established]; rfl⟩⟩)
  | closed _ _ done => exact .inr (.inr ⟨done ▸ rfl, .inl ⟨rfl, done⟩⟩)

/-- The commands' moves are moves of the table, and none leads to CLOSED. -/
theorem statusMove_of_commandMove {x y : Status} (h : commandMove x y = true) :
    y ≠ .closed ∧ statusMove x y = true := by
  revert h
  cases x <;> cases y <;> decide

theorem target_of_commandMove {x y : Status} (h : commandMove x y = true) :
    y ≠ .established ∧ y ≠ .closeWait ∧ y ≠ .closed := by
  revert h
  cases x <;> cases y <;> decide

/-- Where a byte of a block write can lead. -/
theorem ByteMove.target {reset : Bool} {x y : Status} (move : ByteMove reset x y) :
    y ≠ .established ∧ y ≠ .closeWait ∧ (y = .closed → reset = true) := by
  rcases move with command | ⟨resets, rfl⟩
  · obtain ⟨notEstablished, notCloseWait, notClosed⟩ := target_of_commandMove command
    exact ⟨notEstablished, notCloseWait, fun closed => absurd closed notClosed⟩
  · exact ⟨nofun, nofun, fun _ => resets⟩

/-- The status of any socket after an instruction that is no block write. -/
theorem Moves.status (moves : Moves s i t) (fits : opFits (s.sock n).op (s.sock n).status = true) :
    (t.sock n).status = (s.sock n).status
      ∨ ((t.sock n).status = .closed ∧ (resets s i = true ∨ i = .ctlCloseDone n))
      ∨ ((t.sock n).status ≠ .closed ∧ statusMove (s.sock n).status (t.sock n).status = true) := by
  rcases moves with ⟨m, k, cr, tokens, move, step⟩ | ⟨resets, reset⟩
  · by_cases here : n = m
    · subst here
      rw [step.record]
      rcases move.status_cases with same | command | ⟨-, ⟨closed, done⟩ | moved⟩
      · exact .inl same
      · exact .inr (.inr (statusMove_of_commandMove command))
      · exact .inr (.inl ⟨closed, .inr done⟩)
      · exact .inr (.inr (moved fits))
    · exact .inl (by rw [step.otherRecords n here])
  · exact .inr (.inl ⟨by rw [reset.records]; rfl, .inl resets⟩)

/-- The status of any socket after an access that is no block write. -/
theorem Moves.status_access (moves : Moves s i t) (access : isAccess i = true) :
    (t.sock n).status = (s.sock n).status ∨ ByteMove (resets s i) (s.sock n).status (t.sock n).status := by
  rcases moves with ⟨m, k, cr, tokens, move, step⟩ | ⟨resets, reset⟩
  · by_cases here : n = m
    · subst here
      rw [step.record]
      rcases move.status_cases with same | command | ⟨outside, -⟩
      · exact .inl same
      · exact .inr (.inl command)
      · rw [access] at outside
        cases outside
    · exact .inl (by rw [step.otherRecords n here])
  · exact .inr (.inr ⟨resets, by rw [reset.records]; rfl⟩)

/-- A block write: for each byte no move, or one of a command, or the reset that byte is. -/
theorem busWrites_status {data : List Byte} {u : State} (written : busWrites s.fa.addr data s = .next u) :
    Relation.ReflTransGen (ByteMove (resets s (.fWrbytes data))) (s.sock n).status (u.sock n).status := by
  refine (busWrites_chain data _ written).lift' (fun v => (v.sock n).status) fun v w => ?_
  rintro ⟨cfg, j, lt, one⟩
  rcases (exec_moves _ one nofun).status_access (n := n) rfl with same | move
  · show Relation.ReflTransGen _ (v.sock n).status (w.sock n).status
    rw [same]
  · refine .single (move.imp id fun ⟨reset, closed⟩ => ⟨?_, closed⟩)
    simp only [resets, Bool.and_eq_true, beq_iff_eq, cfg] at reset
    exact blockWritePuts_of (p := fun v => v.getLsbD 7) j lt reset.1 reset.2

/-- Settles O60: one instruction makes the one move its record makes, a block write a chain of its bytes' moves. -/
theorem statusMovesFollowTheTable : Obligations.StatusMovesFollowTheTable := by
  intro i s t n inv h x y reset
  constructor
  · rintro ⟨data, rfl⟩
    obtain ⟨-, u, written, rfl⟩ := exec_fWrbytes_next h
    have chain : Relation.ReflTransGen (ByteMove reset) x y := busWrites_status (u := u) written
    rcases chain.cases_tail with same | ⟨z, -, last⟩
    · exact ⟨chain, fun _ => same, fun _ => .inl same⟩
    · obtain ⟨notEstablished, notCloseWait, closed⟩ := last.target
      exact ⟨chain, fun reached => (reached.elim notEstablished notCloseWait).elim, fun e => .inr (closed e)⟩
  · intro noBlock
    have fits := inv.socks n
    simp only [sockFits, Bool.and_eq_true] at fits
    exact (exec_moves i h noBlock).status fits.1.2

end

end Sys2Proof.Machine
end

section
/-! SUPPORT. 20_memory.md section 3, 10_state.md R23: the cells a block may have, and that every write of a rule keeps
them. -/
namespace Sys2Proof.Machine

open Sys2Proof

/-! ## Addresses with a cell -/

theorem storedAddr_of_locate {m : Config.AddressMap} {a : Nat} (plain : locate m a = .plain) :
    storedAddr m a = true := by
  rw [storedAddr, plain]

/-- The common registers, `C.IR` apart. -/
theorem storedAddr_common (a : Nat) (common : a < 0x0400) (notIr : a ≠ 0x0015) : storedAddr .tabled a = true := by
  by_cases mode : a = 0x0000
  · rw [mode]
    rfl
  · exact storedAddr_of_locate (locate_plain a ⟨by omega, mode, notIr, fun n off _ => ne_blockAddr a common n off⟩)

/-- The registers of a socket block that are neither interrupt nor device-owned. -/
theorem storedAddr_blockAddr (n : SockId) (off : Nat) (lt : off < 0x100) (notIr : off ≠ 0x02)
    (notDev : off ∉ devOffsets) : storedAddr .tabled (blockAddr n off) = true := by
  have located := locate_blockAddr n off lt
  simp only [devOffsets, List.mem_cons, List.not_mem_nil, or_false, not_or] at notDev
  simp only [offsetLoc, notIr, notDev, if_false] at located
  rw [storedAddr, located]
  split_ifs <;> rfl

/-- Everything above the socket blocks. -/
theorem storedAddr_bank (a : Nat) (above : 0x0800 ≤ a) (inside : a < 0x8000) : storedAddr .tabled a = true := by
  refine storedAddr_of_locate (locate_plain a ⟨inside, by omega, by omega, fun n off hook => ?_⟩)
  have small := hookOffsets_lt off hook
  have lt := n.isLt
  simp only [blockAddr]
  omega

/-! ## Memories that fit -/

/-- The part of the invariant about the stored bytes: canonical, cells only where storage is, `C.MR` bit 7 clear. -/
structure Window (c : Config.Params) (m : Memory) : Prop where
  tabled : c.Tabled
  wf : Memory.wf m = true
  stored : ∀ x ∈ m, storedAddr c.map x.1 = true
  resetBit : (Memory.read m c.map.cMr).getLsbD 7 = false

/-- May this byte be stored there? -/
structure Storable (c : Config.Params) (a : Nat) (v : Byte) : Prop where
  stored : storedAddr c.map a = true
  mode : a = c.map.cMr → v.getLsbD 7 = false

theorem Memory.mem_insert {m : Memory} {a : Nat} {v : Byte} {x : Host.Cell} (h : x ∈ Memory.insert m a v) :
    x = (a, v) ∨ x ∈ m := by
  induction m with
  | nil => exact .inl (List.mem_singleton.mp h)
  | cons c m ih =>
    rw [Memory.insert] at h
    split at h
    · exact List.mem_cons.mp h
    · rcases List.mem_cons.mp h with rfl | later
      · exact .inr (List.mem_cons_self ..)
      · exact (ih later).imp id (List.mem_cons_of_mem _)

theorem Memory.mem_write {m : Memory} {a : Nat} {v : Byte} {x : Host.Cell} (h : x ∈ Memory.write m a v) :
    x.1 = a ∨ x ∈ m := by
  unfold Memory.write at h
  split at h
  · exact .inr (List.mem_of_mem_filter h)
  · rcases Memory.mem_insert h with rfl | kept
    · exact .inl rfl
    · exact .inr (List.mem_of_mem_filter kept)

section
variable {c : Config.Params} {m : Memory}

theorem Window.write (w : Window c m) {a : Nat} {v : Byte} (ok : Storable c a v) : Window c (Memory.write m a v) where
  tabled := w.tabled
  wf := Memory.wf_write m a v w.wf
  stored x member := by
    rcases Memory.mem_write member with here | kept
    · rw [here]
      exact ok.stored
    · exact w.stored x kept
  resetBit := by
    rw [Memory.read_write]
    split
    case isTrue here => exact ok.mode here.symm
    case isFalse => exact w.resetBit

theorem Window.writeList (w : Window c m) {a : Nat} {vs : List Byte}
    (ok : ∀ i v, i < vs.length → Storable c (a + i) v) : Window c (Memory.writeList m a vs) := by
  induction vs generalizing m a with
  | nil => exact w
  | cons v vs ih =>
    refine ih (w.write (ok 0 v (Nat.succ_pos _))) fun i u lt => ?_
    rw [Nat.add_assoc, Nat.add_comm 1]
    exact ok (i + 1) u (Nat.succ_lt_succ lt)

theorem Window.ringWrite (w : Window c m) {base size : Nat} (p : Nat) (bs : List Byte)
    (enabled : bs ≠ [] → 0 < size) (ok : ∀ r v, r < size → Storable c (base + r) v) :
    Window c (Machine.ringWrite m base size p bs) := by
  induction bs generalizing m p with
  | nil => exact w
  | cons b bs ih =>
    exact ih (w.write (ok _ b (Nat.mod_lt _ (enabled (List.cons_ne_nil b bs))))) (p + 1)
      fun _ => enabled (List.cons_ne_nil b bs)

theorem Window.nil (h : c.Tabled) : Window c [] := by
  refine ⟨h, rfl, nofun, ?_⟩
  rw [Memory.read, Memory.unlisted]
  rfl

/-! ## What the rules write -/

theorem storable_common (h : c.Tabled) (a : Nat) (v : Byte) (common : a < 0x0400) (notMr : a ≠ 0x0000)
    (notIr : a ≠ 0x0015) : Storable c a v := by
  refine ⟨?_, fun mode => absurd mode ?_⟩ <;> rw [h.map]
  · exact storedAddr_common a common notIr
  · exact notMr

theorem storable_block (h : c.Tabled) (n : SockId) (off : Nat) (v : Byte) (lt : off < 0x100) (notIr : off ≠ 0x02)
    (notDev : off ∉ devOffsets) : Storable c (sockAddr c.map n off) v := by
  rw [h.map, sockAddr_tabled]
  refine ⟨?_, fun mode => ?_⟩
  · rw [h.map]
    exact storedAddr_blockAddr n off lt notIr notDev
  · exact absurd mode (blockAddr_ne_cMr h n off)

/-- The two bytes of a cursor register. -/
theorem storable_run (h : c.Tabled) (n : SockId) (off i : Nat) (v : Byte) (lt : i < 2) (cursor : off ∈ [0x24, 0x28]) :
    Storable c (sockAddr c.map n off + i) v := by
  have run : sockAddr c.map n off + i = sockAddr c.map n (off + i) := Nat.add_assoc _ _ _
  rw [run]
  simp only [List.mem_cons, List.not_mem_nil, or_false] at cursor
  refine storable_block h n _ v (by omega) (by omega) ?_
  simp only [devOffsets, List.mem_cons, List.not_mem_nil, or_false]
  omega

theorem storable_ring (h : c.Tabled) (a : Nat) (v : Byte) (above : 0x0800 ≤ a) (inside : a < 0x8000) :
    Storable c a v := by
  refine ⟨?_, fun mode => ?_⟩
  · rw [h.map]
    exact storedAddr_bank a above inside
  · rw [h.map] at mode
    exact absurd (mode.trans rfl : a = 0) (by omega)

end

/-- The stored bytes of a state fit. -/
def State.Windowed (s : State) : Prop := Window s.cfg s.mem

section
variable {s : State}

theorem State.Windowed.setCr (w : s.Windowed) (n : SockId) (v : Byte) : (s.setCr n v).Windowed :=
  Window.write w (by
    have o : s.cfg.map.oCr = 0x01 := by rw [w.tabled.map]; rfl
    rw [o]
    exact storable_block w.tabled n 0x01 v (by omega) (by omega) (by decide))

theorem State.Windowed.initCursors (w : s.Windowed) (n : SockId) : (s.initCursors n).Windowed := by
  have tx : s.cfg.map.oTxWr = 0x24 := by rw [w.tabled.map]; rfl
  have rx : s.cfg.map.oRxRd = 0x28 := by rw [w.tabled.map]; rfl
  show Window s.cfg (Memory.writeList (Memory.writeList s.mem (sockAddr s.cfg.map n s.cfg.map.oTxWr) [0, 0])
    (sockAddr s.cfg.map n s.cfg.map.oRxRd) [0, 0])
  rw [tx, rx]
  refine (Window.writeList w fun i v lt => ?_).writeList fun i v lt => ?_
  · exact storable_run w.tabled n 0x24 i v lt (by decide)
  · exact storable_run w.tabled n 0x28 i v lt (by decide)

/-- Bytes of the common registers. -/
theorem State.Windowed.pokeList (w : s.Windowed) (a : Nat) (vs : List Byte) (notMr : 0 < a)
    (common : a + vs.length ≤ 0x0015 ∨ (0x0015 < a ∧ a + vs.length ≤ 0x0400)) : (s.pokeList a vs).Windowed :=
  Window.writeList w fun i v lt => storable_common w.tabled _ v (by omega) (by omega) (by omega)

theorem State.Windowed.poke (w : s.Windowed) (a : Nat) (v : Byte) (notMr : 0 < a) (notIr : a ≠ 0x0015)
    (common : a < 0x0400) : (s.poke a v).Windowed :=
  Window.write w (storable_common w.tabled a v common (by omega) notIr)

theorem State.Windowed.pokeCMr (w : s.Windowed) (v : Byte) (clear : v.getLsbD 7 = false) :
    (s.poke s.cfg.map.cMr v).Windowed :=
  Window.write w ⟨by rw [w.tabled.map]; rfl, fun _ => clear⟩

theorem State.Windowed.stopSock (w : s.Windowed) (n : SockId) : (s.stopSock n).Windowed := by
  have closed : ((s.closeHandles n).setSock n Sock.reset).Windowed := by
    rw [State.Windowed, State.setSock_cfg, State.setSock_mem, State.closeHandles_cfg, State.closeHandles_mem]
    exact w
  exact closed.setCr n 0x00

theorem State.Windowed.stopAll (w : s.Windowed) : s.stopAll.Windowed :=
  (((w.stopSock 0).stopSock 1).stopSock 2).stopSock 3

theorem State.Windowed.initAll (w : s.Windowed) : s.initAll.Windowed :=
  (((w.initCursors 0).initCursors 1).initCursors 2).initCursors 3

theorem State.Windowed.seedRegs (w : s.Windowed) : s.seedRegs.Windowed := by
  have gateway : s.cfg.map.cGar = 0x0001 := by rw [w.tabled.map]; rfl
  have subnet : s.cfg.map.cSubr = 0x0005 := by rw [w.tabled.map]; rfl
  have mac : s.cfg.map.cShar = 0x0009 := by rw [w.tabled.map]; rfl
  have source : s.cfg.map.cSipr = 0x000F := by rw [w.tabled.map]; rfl
  have seeded : ({ s with seed := s.seedIn } : State).Windowed := w
  unfold State.seedRegs
  rw [gateway, subnet, mac, source]
  have first := seeded.pokeList 0x0001 (quadBytes s.seedIn.gateway) (by omega) (.inl (Nat.le_of_ble_eq_true rfl))
  have second := first.pokeList 0x0005 (quadBytes s.seedIn.subnet) (by omega) (.inl (Nat.le_of_ble_eq_true rfl))
  have third := second.pokeList 0x0009 (macBytes s.seedIn.mac) (by omega) (.inl (Nat.le_of_ble_eq_true rfl))
  exact third.pokeList 0x000F (quadBytes s.seedIn.ip) (by omega) (.inl (Nat.le_of_ble_eq_true rfl))

theorem State.Windowed.defaultRegs (w : s.Windowed) : s.defaultRegs.Windowed := by
  have retryTime : s.cfg.map.cRtr = 0x0017 := by rw [w.tabled.map]; rfl
  have retryCount : s.cfg.map.cRcr = 0x0019 := by rw [w.tabled.map]; rfl
  have rxSelectors : s.cfg.map.cRmsr = 0x001A := by rw [w.tabled.map]; rfl
  have txSelectors : s.cfg.map.cTmsr = 0x001B := by rw [w.tabled.map]; rfl
  have timer : s.cfg.map.cPtimer = 0x0028 := by rw [w.tabled.map]; rfl
  unfold State.defaultRegs
  rw [retryTime, retryCount, rxSelectors, txSelectors, timer]
  have first := w.pokeList 0x0017 (halfBytes s.cfg.resetRtr) (by omega)
    (.inr ⟨by omega, Nat.le_of_ble_eq_true rfl⟩)
  have counted := first.poke 0x0019 s.cfg.resetRcr (by omega) (by omega) (by omega)
  have selected := (counted.poke 0x001A s.cfg.resetRmsr (by omega) (by omega) (by omega)).poke 0x001B s.cfg.resetTmsr
    (by omega) (by omega) (by omega)
  exact selected.poke 0x0028 s.cfg.resetPtimer (by omega) (by omega) (by omega)

theorem State.Windowed.stopped (w : s.Windowed) : (s.stopAll.poke s.cfg.map.cMr 0x00).Windowed := by
  have stopped := w.stopAll.pokeCMr 0x00 rfl
  rwa [State.stopAll_cfg] at stopped

theorem State.Windowed.emptySides (w : s.Windowed) : s.emptySides.Windowed := w

theorem State.Windowed.resetFacade (w : s.Windowed) : s.resetFacade.Windowed := w

theorem State.Windowed.withAlive (w : s.Windowed) (b : Bool) : ({ s with alive := b } : State).Windowed := w

theorem State.Windowed.withMem_nil (w : s.Windowed) : ({ s with mem := [] } : State).Windowed := Window.nil w.tabled

theorem State.Windowed.softReset (w : s.Windowed) : s.softReset.Windowed := by
  unfold State.softReset
  exact w.stopped.seedRegs.defaultRegs.initAll.emptySides

theorem State.Windowed.lifeSoft (w : s.Windowed) : s.lifeSoft.Windowed := by
  unfold State.lifeSoft
  exact w.softReset.resetFacade

theorem State.Windowed.coldOn (w : s.Windowed) : s.coldOn.Windowed := by
  unfold State.coldOn
  exact w.withMem_nil.softReset.resetFacade

theorem State.Windowed.powerOff (w : s.Windowed) : s.powerOff.Windowed := by
  unfold State.powerOff
  exact w.stopAll.emptySides.withMem_nil.initAll.resetFacade

theorem State.Windowed.destroy (w : s.Windowed) : s.destroy.Windowed := by
  unfold State.destroy
  exact w.stopped.defaultRegs.initAll.emptySides.withAlive false

/-- What `RxCommit` stores lies in the bank, if the ring has room for it. -/
theorem State.Windowed.rxCommit (w : s.Windowed) (n : SockId) (bytes : List Byte) (room : bytes.length ≤ s.rxSize n) :
    (s.rxCommit n bytes).Windowed := by
  rw [State.Windowed, State.rxCommit_cfg, State.mem_rxCommit]
  refine Window.ringWrite w _ bytes (fun some => ?_) fun r v lt => ?_
  · have := List.length_pos_iff.mpr some
    omega
  · have bank : s.cfg.map.rxBankBase = 0x6000 ∧ s.cfg.map.bankSize = 8192 := by
      rw [w.tabled.map]
      exact ⟨rfl, rfl⟩
    have fits := ring_end_le_bank_end s.cfg.map.rxBankBase s.cfg.map.bankSize (s.load s.cfg.map.cRmsr) n
      (by rw [State.rxSize] at lt; omega)
    rw [State.rxSize] at lt
    rw [State.rxBase]
    exact storable_ring w.tabled _ v (by omega) (by omega)

/-! ## Commands and bus writes -/

theorem dispatch_windowed {t : State} {closing : Bool} {n : SockId} {rule : State → Result} (w : s.Windowed)
    (h : dispatch closing n rule s = .next t) (keeps : ∀ u, u.Windowed → rule u = .next t → t.Windowed) :
    t.Windowed := by
  obtain ⟨-, ⟨-, next⟩ | ⟨_, -, -, rfl⟩ | ⟨-, -, -, next⟩⟩ := dispatch_cases _ _ _ _ _ h
  · exact keeps s w next
  · exact w
  · exact keeps (s.setOp n .none) w next

theorem dispatch_rule_windowed {t : State} {closing : Bool} {n : SockId} {rule : State → State} (w : s.Windowed)
    (h : dispatch closing n (fun u => .next (rule u)) s = .next t) (keeps : ∀ u, u.Windowed → (rule u).Windowed) :
    t.Windowed :=
  dispatch_windowed w h fun u fits next => by cases next; exact keeps u fits

theorem State.Windowed.ignoreCommand (w : s.Windowed) (n : SockId) : (s.ignoreCommand n).Windowed := w.setCr n 0x00

/-- A record replaced, a command byte stored. -/
theorem State.Windowed.record (w : s.Windowed) (n : SockId) (k : Sock) (v : Byte) :
    ((s.setSock n k).setCr n v).Windowed :=
  State.Windowed.setCr (s := s.setSock n k) w n v

theorem State.Windowed.openAs (w : s.Windowed) (n : SockId) (x : Status) (recv : Bool) (o : CtlOp) (cr : Byte) :
    (s.openAs n x recv o cr).Windowed :=
  (w.initCursors n).record n _ cr

theorem openTcp_windowed (w : s.Windowed) (n : SockId) : (openTcp n s).Windowed := by
  by_cases may : s.mayOpen n = true
  · exact openTcp_opens n s may ▸ w.openAs n _ _ _ _
  · rw [openTcp, if_neg may]
    exact w.ignoreCommand n

theorem openUdp_windowed (w : s.Windowed) (n : SockId) : (openUdp n s).Windowed := by
  by_cases may : s.mayOpen n = true
  · exact openUdp_opens n s may ▸ w.openAs n _ _ _ _
  · rw [openUdp, if_neg may]
    exact w.ignoreCommand n

theorem openIpraw_windowed (w : s.Windowed) (n : SockId) : (openIpraw n s).Windowed := by
  by_cases may : s.mayOpen n = true
  · exact openIpraw_opens n s may ▸ w.openAs n _ _ _ _
  · rw [openIpraw, if_neg may]
    exact w.ignoreCommand n

theorem openByMode_windowed (w : s.Windowed) (n : SockId) : (openByMode n s).Windowed := by
  unfold openByMode
  split
  · exact openTcp_windowed w n
  · exact openUdp_windowed w n
  · exact openIpraw_windowed w n
  · exact w.ignoreCommand n

theorem sendRule_windowed {t : State} {n : SockId} (w : s.Windowed) (h : sendRule n s = .next t) : t.Windowed := by
  unfold sendRule at h
  split at h
  · split at h
    · cases h
    · cases h
      exact w.record n _ _
  · cases h
    exact w.ignoreCommand n

theorem startClose_windowed (w : s.Windowed) (n : SockId) (v : Byte) : (startClose n v s).Windowed := by
  simp only [startClose]
  split
  · exact w.ignoreCommand n
  · exact w.record n _ v

theorem CommandRow.windowed {n : SockId} {c : Byte} {k : Config.Codes} {j : Instr} {t : State}
    (row : CommandRow k n c j) (w : s.Windowed) (h : exec j s = .next t) : t.Windowed := by
  cases row with
  | none => exact exec_scmdNone_next h ▸ w
  | discon | close => exact dispatch_rule_windowed w h fun u fits => startClose_windowed fits n _
  | opens => exact dispatch_rule_windowed w h fun u fits => openByMode_windowed fits n
  | listen =>
    refine dispatch_rule_windowed w h fun u fits => ?_
    rw [listenRule, State.setOp_setStatus]
    split
    · exact fits.record n _ _
    · exact fits.ignoreCommand n
  | connect =>
    refine dispatch_rule_windowed w h fun u fits => ?_
    unfold connectRule
    split
    · exact fits.record n _ _
    · exact fits.ignoreCommand n
  | send => exact dispatch_windowed w h fun u fits => sendRule_windowed fits
  | sendMac =>
    refine dispatch_rule_windowed w h fun u fits => ?_
    rw [sendMacRule, State.raiseInt_releaseTx]
    split
    · exact fits.record n _ _
    · exact fits.ignoreCommand n
  | sendKeep =>
    refine dispatch_rule_windowed w h fun u fits => ?_
    rw [sendKeepRule_eq]
    split
    · exact fits.record n _ _
    · exact fits.ignoreCommand n
  | recv =>
    refine dispatch_rule_windowed w h fun u fits => ?_
    unfold recvRule
    split
    · exact fits.record n _ _
    · exact fits.ignoreCommand n
  | unrecognised =>
    exact dispatch_rule_windowed (rule := (State.ignoreCommand · n)) w h fun u fits => fits.ignoreCommand n

theorem commandWrite_windowed {t : State} {n : SockId} {c : Byte} (w : s.Windowed) (h : commandWrite n c s = .next t) :
    t.Windowed := by
  rw [commandWrite_eq_exec] at h
  exact (commandRow_decodeScmd s.cfg.codes n c).windowed w h

theorem State.Windowed.writeCMr (w : s.Windowed) (v : Byte) : (s.writeCMr v).Windowed := by
  unfold State.writeCMr
  split
  case isTrue => exact w.softReset
  case isFalse low => exact w.pokeCMr v (by simpa using low)

theorem State.Windowed.commitTxWr (w : s.Windowed) (n : SockId) (v : Byte) : (s.commitTxWr n v).Windowed := by
  have o : s.cfg.map.oTxWr + 1 = 0x25 := by rw [w.tabled.map]; rfl
  unfold State.commitTxWr
  rw [o]
  exact Window.write w (storable_block w.tabled n 0x25 v (by omega) (by omega) (by decide))

theorem commitRxRd_windowed {t : State} {n : SockId} {v : Byte} (w : s.Windowed) (h : s.commitRxRd n v = .next t) :
    t.Windowed := by
  have o : s.cfg.map.oRxRd + 1 = 0x29 := by rw [w.tabled.map]; rfl
  unfold State.commitRxRd at h
  rw [o] at h
  extract_lets p u at h
  split at h
  · cases h
  · cases h
    exact Window.write w (storable_block w.tabled n 0x29 v (by omega) (by omega) (by decide))

theorem busWrite_windowed {t : State} {addr : Half} {v : Byte} (w : s.Windowed) (h : busWrite addr v s = .next t) :
    t.Windowed := by
  have alive : s.alive = true := (busWrite_frame h).1
  rw [busWrite, whenAlive_alive s _ alive] at h
  split at h
  case h_1 | h_3 | h_6 => cases h; exact w
  case h_2 => cases h; exact w.writeCMr v
  case h_4 => exact commandWrite_windowed w h
  case h_5 => cases h; exact w
  case h_7 n _ => cases h; exact w.commitTxWr n v
  case h_8 => exact commitRxRd_windowed w h
  case h_9 plain =>
    cases h
    refine Window.write w ⟨storedAddr_of_locate plain, fun mode => ?_⟩
    rw [mode, w.tabled.map] at plain
    cases plain

end

end Sys2Proof.Machine
end

section
/-! SUPPORT. 10_state.md R61, R43, 44_network_port.md R281: every move of a record keeps the part of the invariant about
records, command bytes and handles. -/
namespace Sys2Proof.Machine

open Sys2Proof

/-! ## One record -/

/-- `sockFits`, clause by clause. -/
structure SockFits (mask : Byte) (k : Sock) : Prop where
  conn : k.conn ≠ none → connFits k.status = true
  lsn : k.lsn ≠ none → lsnFits k.status = true
  recv : k.recvEnabled = true → transfers k.status = true
  op : opFits k.op k.status = true
  ir : k.ir &&& ~~~mask = 0

theorem sockFits_iff (mask : Byte) (k : Sock) : sockFits mask k = true ↔ SockFits mask k := by
  have imp (a b : Bool) : (!a || b) = true ↔ (a = true → b = true) := by cases a <;> simp
  have held (o : Option Handle) (b : Bool) : (o.isNone || b) = true ↔ (o ≠ none → b = true) := by cases o <;> simp
  simp only [sockFits, Bool.and_eq_true, held, imp, beq_iff_eq]
  exact ⟨fun ⟨⟨⟨⟨conn, lsn⟩, recv⟩, op⟩, ir⟩ => ⟨conn, lsn, recv, op, ir⟩,
    fun h => ⟨⟨⟨⟨h.conn, h.lsn⟩, h.recv⟩, h.op⟩, h.ir⟩⟩

/-- Raising a defined bit. -/
theorem ir_raised {mask ir int : Byte} (fits : ir &&& ~~~mask = 0) (defined : int &&& ~~~mask = 0) :
    (ir ||| int) &&& ~~~mask = 0 := by
  rw [BitVec.and_comm, BitVec.and_or_distrib_left, BitVec.and_comm _ ir, BitVec.and_comm _ int, fits, defined]
  rfl

/-- The masks of the codes are defined bits. -/
theorem ints_defined {k : Config.Codes} (tabled : k = .tabled) :
    k.intSendOk &&& ~~~k.intMask = 0 ∧ k.intTimeout &&& ~~~k.intMask = 0 ∧ k.intRecv &&& ~~~k.intMask = 0
      ∧ k.intDiscon &&& ~~~k.intMask = 0 ∧ k.intCon &&& ~~~k.intMask = 0 := by
  rw [tabled]
  decide

theorem opFits_udpBind {x : Status} (h : opFits .udpBind x = true) : x = .udp := eq_of_beq h

theorem opFits_close {x : Status} {had : Bool} (h : opFits (.close had) x = true) :
    x = .closing ∨ x = .closeWait := by
  simpa [opFits] using h

theorem opFits_none_of_transfers {x : Status} (h : transfers x = true) : opFits .none x = true := by
  revert h
  cases x <;> decide

section
variable {s : State} {i : Instr} {n : SockId} {k : Sock} {cr : Option Byte} {tokens : Nat}

theorem RecordMove.sockFits (move : RecordMove s i n k cr tokens) (codes : s.cfg.codes = .tabled)
    (h : SockFits s.cfg.codes.intMask (s.sock n)) : SockFits s.cfg.codes.intMask k := by
  obtain ⟨sendOk, timeout, recv, discon, con⟩ := ints_defined codes
  have bare {x : Status} (status : (s.sock n).status = x) (c : connFits x = false) : (s.sock n).conn = none := by
    by_contra held
    have fits := h.conn held
    rw [status, c] at fits
    cases fits
  have deaf {x : Status} (status : (s.sock n).status = x) (c : lsnFits x = false) : (s.sock n).lsn = none := by
    by_contra held
    have fits := h.lsn held
    rw [status, c] at fits
    cases fits
  have disarmed {x : Status} (status : (s.sock n).status = x) (c : transfers x = false) :
      (s.sock n).recvEnabled ≠ true := by
    intro armed
    have fits := h.recv armed
    rw [status, c] at fits
    cases fits
  cases move with
  | same | ignored | txCommitted | rxCommitted => exact ⟨h.conn, h.lsn, h.recv, h.op, h.ir⟩
  | abandoned closed => exact ⟨h.conn, h.lsn, h.recv, by rw [closed]; rfl, h.ir⟩
  | acknowledged v =>
    refine ⟨h.conn, h.lsn, h.recv, h.op, ?_⟩
    simp [BitVec.and_assoc]
  | opened x recv o cr closed arm =>
    have conn (held : (s.sock n).conn ≠ none) : connFits x = true := absurd (bare closed rfl) held
    have lsn (held : (s.sock n).lsn ≠ none) : lsnFits x = true := absurd (deaf closed rfl) held
    simp only [List.mem_cons, Prod.mk.injEq, List.not_mem_nil, or_false] at arm
    rcases arm with ⟨rfl, rfl, rfl, -⟩ | ⟨rfl, rfl, rfl, -⟩ | ⟨rfl, rfl, rfl, -⟩
    · exact ⟨conn, lsn, nofun, rfl, h.ir⟩
    · exact ⟨conn, lsn, nofun, rfl, h.ir⟩
    · exact ⟨conn, lsn, fun _ => rfl, rfl, h.ir⟩
  | listens init =>
    exact ⟨fun held => absurd (bare init rfl) held, fun held => absurd (deaf init rfl) held,
      fun armed => absurd armed (disarmed init rfl), rfl, h.ir⟩
  | connects ms init => exact ⟨h.conn, h.lsn, h.recv, by rw [init]; rfl, h.ir⟩
  | closes had v code notClosed =>
    by_cases wait : (s.sock n).status = .closeWait
    · rw [if_pos wait]
      exact ⟨fun _ => rfl, fun _ => rfl, nofun, rfl, h.ir⟩
    · rw [if_neg wait]
      exact ⟨fun _ => rfl, fun _ => rfl, nofun, rfl, h.ir⟩
  | sends transfer => exact ⟨h.conn, h.lsn, h.recv, transfer, h.ir⟩
  | releases => exact ⟨h.conn, h.lsn, h.recv, h.op, ir_raised h.ir sendOk⟩
  | unkept => exact ⟨h.conn, h.lsn, h.recv, h.op, ir_raised h.ir timeout⟩
  | arms idle transfer => exact ⟨h.conn, h.lsn, fun _ => transfer, h.op, h.ir⟩
  | bound binding =>
    have op := h.op
    rw [binding] at op
    have udp := opFits_udpBind op
    exact ⟨fun _ => by rw [Sock.bound, udp]; rfl, h.lsn, fun _ => by rw [Sock.bound, udp]; rfl,
      by rw [Sock.bound, udp]; rfl, h.ir⟩
  | timedOut busy =>
    refine ⟨h.conn, h.lsn, h.recv, ?_, ir_raised h.ir timeout⟩
    have op := h.op
    rcases busy with binding | ⟨ms, connecting⟩
    · rw [binding] at op
      rw [Sock.timedOut, opFits_udpBind op]
      rfl
    · rw [connecting] at op
      rw [Sock.timedOut, opFits_connect op]
      rfl
  | unheard keeps listening =>
    have op := h.op
    rw [listening] at op
    have status := opFits_listen op
    exact ⟨h.conn, fun _ => by rw [Sock.timedOut, Sock.listening, status]; rfl, h.recv,
      by rw [Sock.timedOut, Sock.listening, status]; rfl, ir_raised h.ir timeout⟩
  | accepted | connected =>
    exact ⟨fun _ => rfl, fun _ => rfl, fun _ => rfl, rfl, ir_raised h.ir con⟩
  | sent conn int sending transfer handle mask =>
    refine ⟨fun held => h.conn ?_, h.lsn, h.recv, opFits_none_of_transfers transfer, ir_raised h.ir ?_⟩
    · rcases handle with rfl | rfl
      · exact held
      · exact absurd rfl held
    · rcases mask with rfl | rfl
      · exact sendOk
      · exact timeout
  | closed had closing =>
    have op := h.op
    rw [closing] at op
    have armed : (s.sock n).recvEnabled ≠ true := (opFits_close op).elim (disarmed · rfl) (disarmed · rfl)
    refine ⟨fun held => absurd rfl held, fun held => absurd rfl held, fun on => absurd on armed, rfl, ?_⟩
    cases had with
    | true => exact ir_raised h.ir discon
    | false => exact h.ir
  | received => exact ⟨h.conn, h.lsn, nofun, h.op, ir_raised h.ir recv⟩
  | ended => exact ⟨fun _ => rfl, fun _ => rfl, nofun, rfl, h.ir⟩
  | receiveFailed conn handle =>
    refine ⟨fun held => h.conn ?_, h.lsn, nofun, h.op, ir_raised h.ir timeout⟩
    rcases handle with rfl | rfl
    · exact held
    · exact absurd rfl held

/-! ## The command byte (R61 (e)) -/

theorem State.commandFits_iff (s : State) (n : SockId) :
    s.commandFits n = true ↔ ((s.sock n).op = .none ↔ s.sCr n = 0) := by
  rw [State.commandFits, beq_iff_eq, Bool.eq_iff_iff, bne_iff_ne, bne_iff_ne, not_iff_not]

/-- The codes that a record with an operation stores are not zero. -/
theorem cmds_nonzero {c : Config.Codes} (tabled : c = .tabled) :
    c.cmdOpen ≠ 0 ∧ c.cmdListen ≠ 0 ∧ c.cmdConnect ≠ 0 ∧ c.cmdDiscon ≠ 0 ∧ c.cmdClose ≠ 0
      ∧ c.cmdSend ≠ 0 := by
  rw [tabled]
  decide

theorem RecordMove.commandFits (move : RecordMove s i n k cr tokens) (codes : s.cfg.codes = .tabled)
    (h : (s.sock n).op = .none ↔ s.sCr n = 0) : k.op = .none ↔ cr.getD (s.sCr n) = 0 := by
  obtain ⟨opens, listen, connect, discon, close, send⟩ := cmds_nonzero codes
  have busy {o : CtlOp} {v : Byte} (op : o ≠ .none) (code : v ≠ 0) : o = .none ↔ (some v).getD (s.sCr n) = 0 :=
    ⟨fun e => absurd e op, fun e => absurd e code⟩
  cases move with
  | same | acknowledged | txCommitted | rxCommitted | received | receiveFailed => exact h
  | ignored idle | releases idle | unkept idle | arms idle => exact ⟨fun _ => rfl, fun _ => idle⟩
  | abandoned | bound | timedOut | unheard | accepted | connected | sent | closed =>
    exact ⟨fun _ => rfl, fun _ => rfl⟩
  | opened x recv o cr closed arm =>
    simp only [List.mem_cons, Prod.mk.injEq, List.not_mem_nil, or_false] at arm
    rcases arm with ⟨rfl, rfl, rfl, rfl⟩ | ⟨rfl, rfl, rfl, rfl⟩ | ⟨rfl, rfl, rfl, rfl⟩
    · exact ⟨fun _ => rfl, fun _ => rfl⟩
    · exact busy nofun opens
    · exact ⟨fun _ => rfl, fun _ => rfl⟩
  | listens => exact busy nofun listen
  | connects => exact busy nofun connect
  | closes had v code =>
    refine busy nofun ?_
    rcases code with rfl | rfl
    · exact discon
    · exact close
  | sends => exact busy nofun send
  | ended => exact busy nofun discon

/-! ## Handles (44_network_port.md R281) -/

/-- The handles of a record. -/
def Sock.handles (k : Sock) : List Handle := k.conn.toList ++ k.lsn.toList

theorem Sock.mem_handles (k : Sock) (h : Handle) : h ∈ k.handles ↔ k.conn = some h ∨ k.lsn = some h := by
  simp [Sock.handles]

theorem Sock.nodup_handles (k : Sock) : k.handles.Nodup ↔ ∀ h, k.conn = some h → k.lsn ≠ some h := by
  unfold Sock.handles
  cases k.conn <;> cases k.lsn <;> simp [eq_comm]

/-- What the live handles of a state satisfy, socket by socket. -/
structure State.HandlesFit (s : State) : Prop where
  own : ∀ n, (s.sock n).handles.Nodup
  apart : ∀ n m, n ≠ m → ∀ h ∈ (s.sock n).handles, h ∉ (s.sock m).handles
  given : ∀ n, ∀ h ∈ (s.sock n).handles, h < s.nextHandle

theorem State.handlesFit_iff (s : State) :
    (s.liveHandles.Nodup ∧ ∀ h ∈ s.liveHandles, h < s.nextHandle) ↔ s.HandlesFit := by
  have live : s.liveHandles = (List.finRange 4).flatMap fun n => (s.sock n).handles := rfl
  have distinct : (List.finRange 4).Nodup := List.nodup_finRange 4
  rw [live, List.nodup_flatMap]
  constructor
  · rintro ⟨⟨own, apart⟩, given⟩
    refine ⟨fun n => own n (List.mem_finRange n), fun n m other => ?_, fun n h member => ?_⟩
    · have symmetric : Std.Symm (Function.onFun List.Disjoint fun n => (s.sock n).handles) := ⟨fun _ _ d => d.symm⟩
      exact fun h here there => apart.forall (List.mem_finRange n) (List.mem_finRange m) other here there
    · exact given h (List.mem_flatMap.mpr ⟨n, List.mem_finRange n, member⟩)
  · rintro ⟨own, apart, given⟩
    refine ⟨⟨fun n _ => own n, ?_⟩, fun h member => ?_⟩
    · exact distinct.pairwise_of_forall_ne fun n _ m _ other h here there => apart n m other h here there
    · obtain ⟨n, -, here⟩ := List.mem_flatMap.mp member
      exact given n h here

/-- The handles of a record after a move: its own, or tokens handed out now, and not one twice. -/
structure HandlesFrom (s : State) (n : SockId) (k : Sock) (tokens : Nat) : Prop where
  own : ∀ h, k.conn = some h → k.lsn ≠ some h
  conn : ∀ h, k.conn = some h → (s.sock n).conn = some h ∨ (s.nextHandle ≤ h ∧ h < s.nextHandle + tokens)
  lsn : ∀ h, k.lsn = some h → (s.sock n).lsn = some h ∨ (s.nextHandle ≤ h ∧ h < s.nextHandle + tokens)

/-- The listening endpoint a completed LISTEN holds, with the tokens handed out for it. -/
theorem Sock.listening_lsn (k : Sock) (keeps : Bool) (next : Handle) :
    ((k.listening keeps next).lsn = some next ∧ k.listenTokens keeps = 1)
      ∨ ((k.listening keeps next).lsn = k.lsn ∧ k.listenTokens keeps = 0) := by
  unfold Sock.listening Sock.listenTokens
  split
  · exact .inl ⟨rfl, rfl⟩
  · exact .inr ⟨rfl, rfl⟩

theorem RecordMove.handles (move : RecordMove s i n k cr tokens) (fits : s.HandlesFit) : HandlesFrom s n k tokens := by
  have own := (s.sock n).nodup_handles.mp (fits.own n)
  have given (h : Handle) (e : (s.sock n).conn = some h ∨ (s.sock n).lsn = some h) : h < s.nextHandle :=
    fits.given n h (((s.sock n).mem_handles h).mpr e)
  have fresh (h : Handle) (le : s.nextHandle ≤ h) : (s.sock n).lsn ≠ some h := fun listed =>
    absurd (given h (.inr listed)) (Nat.not_lt_of_le le)
  have held {conn : Option Handle} (handle : conn = (s.sock n).conn ∨ conn = none) (h : Handle) (e : conn = some h) :
      (s.sock n).conn = some h := by
    rcases handle with rfl | rfl
    · exact e
    · cases e
  cases move with
  | same | ignored | abandoned | acknowledged | txCommitted | rxCommitted | opened | listens | connects | closes | sends
  | releases | unkept | arms | timedOut | received | ended => exact ⟨own, fun h e => .inl e, fun h e => .inl e⟩
  | bound | connected =>
    refine ⟨fun h e => ?_, fun h e => ?_, fun h e => .inl e⟩
    all_goals cases e
    · exact fresh _ (Nat.le_refl _)
    · exact .inr ⟨Nat.le_refl _, Nat.lt_succ_self _⟩
  | unheard keeps =>
    rcases (s.sock n).listening_lsn keeps s.nextHandle with ⟨lsn, one⟩ | ⟨lsn, none⟩
    · refine ⟨fun h e listed => ?_, fun h e => .inl e, fun h e => ?_⟩
      · cases lsn.symm.trans listed
        exact Nat.lt_irrefl _ (given _ (.inl e))
      · cases lsn.symm.trans e
        exact .inr ⟨Nat.le_refl _, one ▸ Nat.lt_succ_self _⟩
    · exact ⟨fun h e listed => own h e (lsn.symm.trans listed), fun h e => .inl e,
        fun h e => .inl (lsn.symm.trans e)⟩
  | accepted keeps =>
    rcases (s.sock n).listening_lsn keeps s.nextHandle with ⟨lsn, one⟩ | ⟨lsn, none⟩
    · rw [one]
      refine ⟨fun h e listed => ?_, fun h e => ?_, fun h e => ?_⟩
      · cases e
        exact Nat.succ_ne_self _ (Option.some.inj (listed.symm.trans lsn))
      · cases e
        exact .inr ⟨Nat.le_succ _, Nat.lt_succ_self _⟩
      · cases lsn.symm.trans e
        exact .inr ⟨Nat.le_refl _, Nat.lt_add_of_pos_right Nat.two_pos⟩
    · rw [none]
      refine ⟨fun h e listed => ?_, fun h e => ?_, fun h e => .inl (lsn.symm.trans e)⟩
      · cases e
        exact fresh _ (Nat.le_refl _) (lsn.symm.trans listed)
      · cases e
        exact .inr ⟨Nat.le_refl _, Nat.lt_succ_self _⟩
  | sent conn _ _ _ handle | receiveFailed conn handle =>
    exact ⟨fun h e => own h (held handle h e), fun h e => .inl (held handle h e), fun h e => .inl e⟩
  | closed => exact ⟨nofun, nofun, nofun⟩

theorem HandlesFrom.source (source : HandlesFrom s n k tokens) (h : Handle) (member : h ∈ k.handles) :
    h ∈ (s.sock n).handles ∨ (s.nextHandle ≤ h ∧ h < s.nextHandle + tokens) := by
  rw [Sock.mem_handles]
  rcases (k.mem_handles h).mp member with e | e
  · exact (source.conn h e).imp .inl id
  · exact (source.lsn h e).imp .inr id

/-- No other socket holds a handle of the new record. -/
theorem HandlesFrom.apart (source : HandlesFrom s n k tokens) (fits : s.HandlesFit) (m : SockId) (other : m ≠ n)
    (h : Handle) (member : h ∈ k.handles) : h ∉ (s.sock m).handles := by
  intro there
  rcases source.source h member with held | ⟨token, -⟩
  · exact fits.apart n m other.symm h held there
  · exact absurd (fits.given m h there) (Nat.not_lt_of_le token)

theorem RecordStep.handlesFit {t : State} (step : RecordStep n k cr tokens s t) (fits : s.HandlesFit)
    (source : HandlesFrom s n k tokens) : t.HandlesFit where
  own m := by
    by_cases here : m = n
    · rw [here, step.record]
      exact k.nodup_handles.mpr source.own
    · rw [step.otherRecords m here]
      exact fits.own m
  apart a b other h member := by
    by_cases left : a = n
    · have right : b ≠ n := fun e => other (left.trans e.symm)
      rw [left, step.record] at member
      rw [step.otherRecords b right]
      exact source.apart fits b right h member
    · rw [step.otherRecords a left] at member
      by_cases right : b = n
      · rw [right, step.record]
        exact fun there => source.apart fits a left h there member
      · rw [step.otherRecords b right]
        exact fits.apart a b other h member
  given m h member := by
    rw [step.tokens]
    by_cases here : m = n
    · rw [here, step.record] at member
      rcases source.source h member with held | ⟨-, token⟩
      · exact Nat.lt_of_lt_of_le (fits.given n h held) (Nat.le_add_right _ _)
      · exact token
    · rw [step.otherRecords m here] at member
      exact Nat.lt_of_lt_of_le (fits.given m h member) (Nat.le_add_right _ _)

end

/-! ## All records -/

/-- The part of the invariant about records, command bytes and handles. -/
structure State.RecordsFit (s : State) : Prop where
  socks : ∀ n, SockFits s.cfg.codes.intMask (s.sock n)
  commands : ∀ n, (s.sock n).op = .none ↔ s.sCr n = 0
  handles : s.HandlesFit

theorem State.Inv.recordsFit {s : State} (inv : s.Inv) : s.RecordsFit where
  socks n := (sockFits_iff _ _).mp (inv.socks n)
  commands n := (s.commandFits_iff n).mp (inv.commands n)
  handles := s.handlesFit_iff.mp inv.handles

section
variable {s t : State}

theorem RecordStep.recordsFit {i : Instr} {n : SockId} {k : Sock} {cr : Option Byte} {tokens : Nat}
    (move : RecordMove s i n k cr tokens) (step : RecordStep n k cr tokens s t) (tabled : s.cfg.Tabled)
    (fits : s.RecordsFit) : t.RecordsFit where
  socks m := by
    rw [step.cfg]
    by_cases here : m = n
    · rw [here, step.record]
      exact move.sockFits tabled.codes (fits.socks n)
    · rw [step.otherRecords m here]
      exact fits.socks m
  commands m := by
    by_cases here : m = n
    · rw [here, step.record, step.command tabled]
      exact move.commandFits tabled.codes (fits.commands n)
    · rw [step.otherRecords m here, step.otherCommands tabled m here]
      exact fits.commands m
  handles := step.handlesFit fits.handles (move.handles fits.handles)

theorem AllReset.recordsFit (reset : AllReset s t) (tabled : s.cfg.Tabled) : t.RecordsFit where
  socks n := by
    rw [reset.records]
    exact ⟨nofun, nofun, nofun, rfl, BitVec.zero_and⟩
  commands n := by
    rw [reset.records, reset.commands tabled]
    exact ⟨fun _ => rfl, fun _ => rfl⟩
  handles := by
    have none (n : SockId) (h : Handle) : h ∉ (t.sock n).handles := by
      rw [reset.records]
      exact List.not_mem_nil
    exact ⟨fun n => by rw [reset.records]; exact List.nodup_nil, fun n m _ h member => absurd member (none n h),
      fun n h member => absurd member (none n h)⟩

/-- Every instruction but a block write keeps it. -/
theorem Moves.recordsFit {i : Instr} (moves : Moves s i t) (tabled : s.cfg.Tabled) (fits : s.RecordsFit) :
    t.RecordsFit := by
  rcases moves with ⟨n, k, cr, tokens, move, step⟩ | ⟨-, reset⟩
  · exact step.recordsFit move tabled fits
  · exact reset.recordsFit tabled

theorem Moves.cfg {i : Instr} (moves : Moves s i t) : t.cfg = s.cfg := by
  rcases moves with ⟨n, k, cr, tokens, -, step⟩ | ⟨-, reset⟩
  · exact step.cfg
  · exact reset.cfg

end

end Sys2Proof.Machine
end

section
/-! SUPPORT. 10_state.md R62 to R64, 47_firmware_facade.md R361: the side structures and the facade's parser, and that
every rule keeps them as their tables say. -/
namespace Sys2Proof.Machine

open Sys2Proof

/-- The part of the invariant about exchange, pings, ports and parser. -/
structure Sides (c : Config.Params) (now : Nat) (dhcp : Option DhcpExchange) (pings : List Ping)
    (prov released : List Half) (fa : Facade) : Prop where
  dhcp : ∀ x, dhcp = some x → exchangeFits c.dhcpFrameLen x = true
  pings : ∀ g ∈ pings, pingFits g = true
  ports : prov.Nodup ∧ released.Nodup ∧ (0 : Half) ∉ prov
  facade : phaseFits c.ops fa.phase = true ∧ fa.t0 ≤ now

/-- The side structures of a state fit. -/
def State.SidesFit (s : State) : Prop := Sides s.cfg s.now s.dhcp s.pings s.prov s.released s.fa

section
variable {s t : State}

theorem OnlyWindow.sidesFit (only : OnlyWindow s t) (d : s.SidesFit) : t.SidesFit := by
  rw [only]
  exact d

theorem State.SidesFit.withFa (d : s.SidesFit) {f : Facade} (phase : phaseFits s.cfg.ops f.phase = true)
    (start : f.t0 ≤ s.now) : (s.withFa f).SidesFit :=
  ⟨d.dhcp, d.pings, d.ports, phase, start⟩

/-! ## Resets -/

theorem Sides.emptied {c : Config.Params} {now : Nat} {fa : Facade}
    (facade : phaseFits c.ops fa.phase = true ∧ fa.t0 ≤ now) : Sides c now none [] [] [] fa :=
  ⟨nofun, nofun, ⟨List.nodup_nil, List.nodup_nil, List.not_mem_nil⟩, facade⟩

theorem State.SidesFit.softReset (d : s.SidesFit) : s.softReset.SidesFit := by
  rw [State.SidesFit, s.softReset_cfg, s.softReset_now, s.softReset_dhcp, s.softReset_pings, s.softReset_prov,
    s.softReset_released, s.softReset_fa]
  exact .emptied d.facade

theorem State.SidesFit.resetFacade (d : s.SidesFit) : s.resetFacade.SidesFit := d.withFa rfl (Nat.le_refl _)

theorem State.SidesFit.lifeSoft (d : s.SidesFit) : s.lifeSoft.SidesFit := by
  unfold State.lifeSoft
  exact d.softReset.resetFacade

theorem State.SidesFit.withMem_nil (d : s.SidesFit) : ({ s with mem := [] } : State).SidesFit := d

theorem State.SidesFit.coldOn (d : s.SidesFit) : s.coldOn.SidesFit := by
  unfold State.coldOn
  exact d.withMem_nil.softReset.resetFacade

theorem sidesFit_powerOff (s : State) : s.powerOff.SidesFit := by
  rw [State.powerOff_rest]
  exact .emptied ⟨rfl, Nat.le_refl _⟩

theorem State.SidesFit.destroy (d : s.SidesFit) : s.destroy.SidesFit := by
  rw [State.destroy_rest]
  exact .emptied d.facade

/-! ## The exchange (R62) -/

theorem exchangeFits_iff (len : Nat) (x : DhcpExchange) :
    exchangeFits len x = true ↔ x.buf.length = len ∧ x.chaddr.length = 16 := by
  simp [exchangeFits]

/-- A fabricated frame has its length, also where that cuts the options off (log 17). -/
theorem length_buildOffer_of_chaddr (f : DhcpFrame) (seed : Seed) (cfg : Config.Params)
    (chaddr : f.chaddr.length = 16) : (buildOffer f seed cfg).length = cfg.dhcpFrameLen := by
  rw [buildOffer, List.length_take, List.length_append, length_offerFields f seed cfg chaddr, List.length_replicate]
  omega

theorem State.SidesFit.withDhcp (d : s.SidesFit) {x : Option DhcpExchange}
    (fits : ∀ y, x = some y → exchangeFits s.cfg.dhcpFrameLen y = true) : ({ s with dhcp := x } : State).SidesFit :=
  ⟨fits, d.pings, d.ports, d.facade⟩

theorem State.SidesFit.discoverRule (d : s.SidesFit) (n : SockId) (f : DhcpFrame) (chaddr : f.chaddr.length = 16) :
    (discoverRule n f s).SidesFit := by
  unfold Machine.discoverRule
  split
  · refine d.withDhcp fun y e => ?_
    cases e
    exact (exchangeFits_iff _ _).mpr ⟨length_buildOffer_of_chaddr f s.seed s.cfg chaddr, chaddr⟩
  · exact d

theorem State.SidesFit.requestRule (d : s.SidesFit) (n : SockId) (f : DhcpFrame) : (requestRule n f s).SidesFit := by
  cases held : s.dhcp with
  | none => rw [requestRule_noExchange n f s held]; exact d
  | some x =>
    rw [requestRule_exchange n f s x held]
    split
    · refine d.withDhcp fun y e => ?_
      cases e
      obtain ⟨buf, chaddr⟩ := (exchangeFits_iff _ _).mp (d.dhcp x held)
      exact (exchangeFits_iff _ _).mpr ⟨by rw [ackBuffer, List.length_set, buf], chaddr⟩
    · exact d

theorem State.SidesFit.expireRule (d : s.SidesFit) : (expireRule s).SidesFit := by
  unfold Machine.expireRule
  split
  · split
    · exact d.withDhcp nofun
    · exact d
  · exact d

/-- What a decoded instruction carries (30_encoding.md R123, 46_icmp_echo.md R341). -/
def Carries : Instr → Prop
  | .dhcpDiscover _ f => f.chaddr.length = 16
  | .icmpEchoRequest _ payload => isEchoRequest Config.protoIcmp payload = true
  | _ => True

theorem parseDhcp_chaddr {data : List Byte} {f : DhcpFrame} (parsed : parseDhcp data = some f) :
    f.chaddr.length = 16 := by
  unfold parseDhcp at parsed
  split at parsed
  · cases parsed
  · split at parsed
    · cases parsed
    · split at parsed
      · cases parsed
        have long : Config.dhcpMinLen = 240 := rfl
        simp only [List.length_take, List.length_drop]
        omega
      · cases parsed

theorem carries_decodeDhcp (n : SockId) (data : List Byte) : Carries (decodeDhcp n data) := by
  unfold decodeDhcp
  split
  · trivial
  case h_2 f parsed =>
    split_ifs
    · exact parseDhcp_chaddr parsed
    · trivial
    · trivial

theorem carries_decodeIcmp (n : SockId) (proto : Byte) (data : List Byte) : Carries (decodeIcmp n proto data) := by
  unfold decodeIcmp
  split
  case isTrue echo =>
    simp only [isEchoRequest, Bool.and_eq_true, beq_iff_eq] at echo
    simp [Carries, isEchoRequest, echo]
  case isFalse => trivial

theorem State.SidesFit.dhcpInput (d : s.SidesFit) (n : SockId) (data : List Byte) : (dhcpInput n data s).SidesFit := by
  have carries := carries_decodeDhcp n data
  unfold Machine.dhcpInput
  split
  case h_1 f decoded =>
    rw [decoded] at carries
    exact d.discoverRule n f carries
  case h_2 => exact d.requestRule n _
  case h_3 => exact d

/-! ## Pings (R63) -/

theorem State.SidesFit.withPings (d : s.SidesFit) {l : List Ping} (fits : ∀ g ∈ l, pingFits g = true) :
    ({ s with pings := l } : State).SidesFit :=
  ⟨d.dhcp, fits, d.ports, d.facade⟩

theorem State.SidesFit.pingRule (d : s.SidesFit) (n : SockId) (payload : List Byte)
    (echo : isEchoRequest Config.protoIcmp payload = true) : (pingRule n payload s).SidesFit := by
  refine d.withPings fun g member => ?_
  rcases List.mem_append.mp member with old | new
  · exact d.pings g old
  · rw [List.mem_singleton.mp new, pingFits, echo]
    rfl

theorem State.SidesFit.icmpInput (d : s.SidesFit) (n : SockId) (data : List Byte) : (icmpInput n data s).SidesFit := by
  have carries := carries_decodeIcmp n (s.sProto n) data
  unfold Machine.icmpInput
  split
  case h_1 decoded =>
    rw [decoded] at carries
    exact d.pingRule n _ carries
  case h_2 => exact d

theorem State.SidesFit.probeRule (d : s.SidesFit) (p : Nat) (reachable : Bool) :
    (probeRule p reachable s).SidesFit := by
  cases found : s.pings[p]? with
  | none => rw [probeRule_absent p reachable s (by simpa using found)]; exact d
  | some g =>
    rw [probeRule_found p reachable s g found]
    split
    · refine d.withPings fun q member => ?_
      split at member
      · rcases List.mem_or_eq_of_mem_set member with old | rfl
        · exact d.pings q old
        · have fits := d.pings g (List.mem_of_getElem? found)
          simp only [pingFits, Bool.and_eq_true] at fits ⊢
          exact ⟨fits.1, rfl⟩
      · exact d.pings q (List.mem_of_mem_eraseIdx member)
    · exact d

theorem State.SidesFit.pingExpireRule (d : s.SidesFit) (p : Nat) : (pingExpireRule p s).SidesFit := by
  cases found : s.pings[p]? with
  | none => rw [pingExpireRule_absent p s (by simpa using found)]; exact d
  | some g =>
    rw [pingExpireRule_found p s g found]
    split
    · exact d.withPings fun q member => d.pings q (List.mem_of_mem_eraseIdx member)
    · exact d

/-! ## Ports (R64) -/

theorem State.SidesFit.releasePort (d : s.SidesFit) (p : Half) : (s.releasePort p).SidesFit := by
  obtain ⟨prov, released, nonzero⟩ := d.ports
  unfold State.releasePort
  split
  · have erased (member : (0 : Half) ∈ portErase s.prov p) : False := nonzero ((mem_portErase _ _ _).mp member).1
    refine ⟨d.dhcp, d.pings, ⟨prov.filter _, ?_, erased⟩, d.facade⟩
    show (portInsert s.released p).Nodup
    unfold portInsert
    split
    · exact released
    case isFalse new =>
      exact List.nodup_append_comm.mp (List.nodup_cons.mpr ⟨by simpa using new, released⟩)
  · exact d

/-! ## Every instruction -/

/-- The invariant without the records. -/
def State.RestFits (s : State) : Prop := s.Windowed ∧ s.SidesFit

theorem State.Inv.restFits (inv : s.Inv) : s.RestFits :=
  ⟨⟨inv.config, inv.memWf, inv.memStored, inv.resetBit⟩, ⟨inv.dhcp, inv.pings, inv.ports, inv.facade⟩⟩

/-- The three parts are the invariant. -/
theorem inv_of_parts (rest : s.RestFits) (records : s.RecordsFit) : s.Inv where
  config := rest.1.tabled
  memWf := rest.1.wf
  memStored := rest.1.stored
  resetBit := rest.1.resetBit
  socks n := (sockFits_iff _ _).mpr (records.socks n)
  commands n := (s.commandFits_iff n).mpr (records.commands n)
  handles := s.handlesFit_iff.mpr records.handles
  dhcp := rest.2.dhcp
  pings := rest.2.pings
  ports := rest.2.ports
  facade := rest.2.facade

/-- A record replaced and a command byte stored, in a state `u` with the rest of `s`. -/
theorem State.RestFits.record (r : s.RestFits) (n : SockId) (k : Sock) (v : Byte) :
    ((s.setSock n k).setCr n v).RestFits :=
  ⟨r.1.record n k v, r.2⟩

theorem State.RestFits.withFa (r : s.RestFits) {f : Facade} (phase : phaseFits s.cfg.ops f.phase = true)
    (start : f.t0 ≤ s.now) : (s.withFa f).RestFits :=
  ⟨r.1, r.2.withFa phase start⟩

theorem State.RestFits.charged (r : s.RestFits) (reqs : List NetReq) (tokens pulses frees : Nat) :
    (s.charged reqs tokens pulses frees).RestFits := r

theorem State.RestFits.bindDone (r : s.RestFits) (n : SockId) (a : BindAnswer) : (bindDone n a s).RestFits := by
  cases a with
  | ok => rw [bindDone_ok]; exact (r.charged ..).record ..
  | fail => rw [bindDone_fail]; exact (r.charged ..).record ..
  | failPermission => rw [bindDone_failPermission]; exact (r.charged ..).record ..

theorem State.RestFits.listenDone (r : s.RestFits) (n : SockId) (a : AcceptAnswer) (draw : ListenDraw) :
    (listenDone n a draw s).RestFits := by
  cases a with
  | accepted => rw [listenDone_accepted]; exact (r.charged ..).record ..
  | fail => rw [listenDone_fail]; exact (r.charged ..).record ..
  | failPermission => rw [listenDone_failPermission]; exact (r.charged ..).record ..

theorem State.RestFits.connectDone (r : s.RestFits) (n : SockId) (ms : Nat) (a : ConnectAnswer) :
    (connectDone n ms a s).RestFits := by
  by_cases loopback : s.selfLoopback n = true
  · rw [connectDone_loopback n ms a s loopback]
    exact (r.charged ..).record ..
  · cases a with
    | connected => rw [connectDone_connected n ms s loopback]; exact (r.charged ..).record ..
    | fail => rw [connectDone_fail n ms s loopback]; exact (r.charged ..).record ..

theorem State.RestFits.sendRoute (r : s.RestFits) (n : SockId) (data : List Byte) (ok : Bool) :
    (sendRoute n data ok s).1.RestFits := by
  simp only [Machine.sendRoute]
  repeat' split
  case _ => exact r
  case _ => exact r
  case _ => exact ⟨by rw [dhcpInput_rest]; exact r.1, r.2.dhcpInput n data⟩
  case _ => exact r
  case _ => exact r
  case _ => exact r
  case _ => exact ⟨by rw [icmpInput_rest]; exact r.1, r.2.icmpInput n data⟩

theorem State.RestFits.sendEnd (r : s.RestFits) (n : SockId) (keep : Bool) (codes : Config.Codes) (fate : SendFate) :
    (sendEnd n keep codes s fate).RestFits := by
  cases fate with
  | sent => rw [sendEnd_sent]; exact r.record ..
  | failedInside => rw [sendEnd_failedInside]; exact r.record ..
  | failedOutside =>
    cases keep with
    | true => rw [sendEnd_kept]; exact r.record ..
    | false => rw [sendEnd_failedOutside]; exact State.RestFits.record (s := s.askAll _) r ..

theorem State.RestFits.sendDone (r : s.RestFits) (n : SockId) (ok keep : Bool) : (sendDone n ok keep s).RestFits := by
  rw [sendDone_eq]
  exact ((r.charged [] 0 0 _).sendRoute n _ ok).sendEnd n keep _ _

theorem State.RestFits.closeDone (r : s.RestFits) (n : SockId) (had : Bool) : (closeDone n had s).RestFits := by
  rw [closeDone_eq]
  have released : ((s.askAll (s.sock n).closeRequests).releasePort (s.sPort n)).RestFits := by
    refine ⟨?_, State.SidesFit.releasePort (s := s.askAll _) r.2 _⟩
    rw [State.releasePort_eq]
    exact r.1
  exact released.record ..

/-- A receive stores bytes the ring has room for. -/
theorem State.RestFits.rxCommit (r : s.RestFits) (n : SockId) (bytes : List Byte) (room : bytes.length ≤ s.rxSize n) :
    (s.rxCommit n bytes).RestFits :=
  ⟨r.1.rxCommit n bytes room, r.2⟩

theorem State.RestFits.askReceive (r : s.RestFits) (n : SockId) : (s.askReceive n).RestFits := by
  rw [State.askReceive_rest]
  exact r

theorem State.askReceive_rxSize (s : State) (n m : SockId) : (s.askReceive n).rxSize m = s.rxSize m := by
  rw [State.askReceive_rest]
  rfl

theorem State.RestFits.received (r : s.RestFits) (n : SockId) (bytes : List Byte) (room : bytes.length ≤ s.rxFree n) :
    ((s.askReceive n).rxCommit n bytes).RestFits := by
  refine (r.askReceive n).rxCommit n bytes ?_
  rw [s.askReceive_rxSize]
  exact room.trans (Nat.sub_le _ _)

theorem State.RestFits.rxTcpRule (r : s.RestFits) (n : SockId) (avail : List Byte) (k : Nat) :
    (rxTcpRule n avail k s).RestFits := by
  unfold Machine.rxTcpRule
  split
  case isTrue guard =>
    simp only [Bool.and_eq_true, decide_eq_true_eq] at guard
    exact r.received n _ ((List.length_take_le k avail).trans guard.2)
  case isFalse => exact r

theorem State.RestFits.rxUdpRule (r : s.RestFits) (n : SockId) (ip : Quad) (port : Half) (payload : List Byte) :
    (rxUdpRule n ip port payload s).RestFits := by
  unfold Machine.rxUdpRule
  split
  case isTrue guard =>
    simp only [Bool.and_eq_true, decide_eq_true_eq] at guard
    exact r.received n (datagram ip port payload (s.rxFree n)) (length_datagram_le ip port payload _ guard.2)
  case isFalse => exact r

theorem State.RestFits.rxEofRule (r : s.RestFits) (n : SockId) : (rxEofRule n s).RestFits := by
  unfold Machine.rxEofRule
  split
  · exact (r.askReceive n).record ..
  · exact r

theorem State.RestFits.rxErrorRule (r : s.RestFits) (n : SockId) (keep : Bool) : (rxErrorRule n keep s).RestFits := by
  unfold Machine.rxErrorRule
  split
  · have asked := r.askReceive n
    cases keep with
    | true => exact asked
    | false =>
      simp only [Bool.false_eq_true, if_false]
      rw [State.dropConn_eq]
      exact asked
  · exact r

theorem State.RestFits.deliverRule (r : s.RestFits) (n : SockId) : (deliverRule n s).RestFits := by
  by_cases may : ∃ x, s.dhcp = some x ∧ mayDeliver n x s = true
  · obtain ⟨x, held, may⟩ := may
    rw [deliverRule_delivers n x s held may]
    have fits := r.2.dhcp x held
    have delivered : ({ s with dhcp := x.delivered } : State).RestFits := by
      refine ⟨r.1, r.2.withDhcp fun y e => ?_⟩
      unfold DhcpExchange.delivered at e
      split at e
      · cases e
      · cases e
        exact (exchangeFits_iff _ _).mpr ((exchangeFits_iff _ _).mp fits)
    exact delivered.rxCommit n _ ((length_delivery_le may fits).trans (Nat.sub_le _ _))
  · rw [deliverRule_withholds n s fun x held ok => may ⟨x, held, ok⟩]
    exact r

theorem State.RestFits.rxIprawRule (r : s.RestFits) (n : SockId) : (rxIprawRule n s).RestFits := by
  unfold Machine.rxIprawRule
  split
  case isFalse => exact r
  case isTrue =>
    split
    case h_1 => exact r
    case h_2 g rest taken =>
      split
      case isFalse => exact r
      case isTrue room =>
        obtain ⟨pre, post, whole, left, -, -⟩ := takeReached_eq_some taken
        have answered : (s.answered rest).RestFits := by
          refine ⟨r.1, r.2.withPings fun q member => r.2.pings q ?_⟩
          rw [left] at member
          rw [whole]
          exact (List.mem_append.mp member).elim (List.mem_append_left _)
            fun later => List.mem_append_right _ (List.mem_cons_of_mem _ later)
        have reply := length_delivered_reply_le room (r.2.pings g (by simp [whole])) s.freeUsed
          (echoReply g.payload).length
        rw [← State.rxCommit_answered]
        exact answered.rxCommit n _ (reply.trans (Nat.sub_le _ _))

/-! ## The facade (R361, R366 to R376) -/

/-- A state whose parser came to rest. -/
theorem State.RestFits.answer (r : s.RestFits) (out : List Byte) : (s.answer out).RestFits :=
  r.withFa rfl r.2.facade.2

theorem restFits_fPortno (r : s.RestFits) (h : execFPortno s = .next t) : t.RestFits := by
  unfold execFPortno whenAlive at h
  split at h
  · split at h
    case h_1 p found =>
      cases h
      obtain ⟨nonzero, free⟩ := firstFreePort_spec _ _ _ _ found
      obtain ⟨prov, released, zero⟩ := r.2.ports
      have inserted : portInsert s.prov p = s.prov ++ [p] := if_neg (by simpa using free)
      refine ⟨r.1, r.2.dhcp, r.2.pings, ⟨?_, released, ?_⟩, rfl, r.2.facade.2⟩
      · show (portInsert s.prov p).Nodup
        rw [inserted]
        exact List.nodup_append_comm.mp (List.nodup_cons.mpr ⟨free, prov⟩)
      · show (0 : Half) ∉ portInsert s.prov p
        rw [inserted]
        exact fun member => (List.mem_append.mp member).elim zero fun new => nonzero (List.mem_singleton.mp new).symm
    case h_2 => cases h
  · cases h

/-! ## Every instruction -/

theorem restFits_of_next {u : State} (h : (.next (if s.alive = true then u else s) : Result) = .next t) (r : s.RestFits)
    (fits : u.RestFits) : t.RestFits := by
  cases h
  split
  · exact fits
  · exact r

theorem restFits_of_whenAlive {res : Result} (h : whenAlive s res = .next t) (fits : res = .next t → t.RestFits) :
    t.RestFits := by
  unfold whenAlive at h
  split at h
  · exact fits h
  · cases h

theorem restFits_of_access {u : State} (h : whenAlive s (.next u) = .next t) (fits : u.RestFits) : t.RestFits :=
  restFits_of_whenAlive h fun e => by cases e; exact fits

theorem State.RestFits.busWrite (r : s.RestFits) {addr : Half} {v : Byte} (h : busWrite addr v s = .next t) :
    t.RestFits := by
  refine ⟨busWrite_windowed r.1 h, ?_⟩
  obtain ⟨-, only | rfl⟩ := busWrite_frame h
  · exact only.sidesFit r.2
  · exact r.2.softReset

theorem CommandRow.restFits {n : SockId} {c : Byte} {k : Config.Codes} {j : Instr} (row : CommandRow k n c j)
    (r : s.RestFits) (h : exec j s = .next t) : t.RestFits :=
  ⟨row.windowed r.1 h, (row.onlyWindow h).sidesFit r.2⟩

theorem restFits_open {n : SockId} {rule : State → State} (r : s.RestFits)
    (h : dispatch false n (fun u => .next (rule u)) s = .next t) (w : ∀ u, u.Windowed → (rule u).Windowed)
    (only : ∀ u, OnlyWindow u (rule u)) : t.RestFits :=
  ⟨dispatch_rule_windowed r.1 h w, (dispatch_rule_onlyWindow h only).sidesFit r.2⟩

/-- Every instruction of a live block, but a block write, keeps what is no record. -/
theorem exec_restFits_alive (i : Instr) (carries : Carries i) (h : exec i s = .next t)
    (noBlock : ∀ data, i ≠ .fWrbytes data) (r : s.RestFits) (alive : s.alive = true) : t.RestFits := by
  cases i with
  | rd a => exact restFits_of_access h r
  | wr a d => exact r.busWrite h
  | wrCMr d =>
    refine restFits_of_access h ⟨r.1.writeCMr d, ?_⟩
    unfold State.writeCMr
    split
    · exact r.2.softReset
    · exact r.2
  | wrCIr d | wrSnSr n d => exact restFits_of_access h r
  | wrSnCr n c =>
    exact restFits_of_whenAlive h fun e => ⟨commandWrite_windowed r.1 e, (commandWrite_onlyWindow e).sidesFit r.2⟩
  | wrSnIr n v => exact restFits_of_access h r
  | wrSnTxWrLo n d => exact restFits_of_access h ⟨r.1.commitTxWr n d, r.2⟩
  | wrSnRxRdLo n d =>
    exact restFits_of_whenAlive h fun e => ⟨commitRxRd_windowed r.1 e, (commitRxRd_onlyWindow e).sidesFit r.2⟩
  | scmdNone m => exact (CommandRow.none (k := s.cfg.codes) (c := 0)).restFits r h
  | scmdOpen m => exact (CommandRow.opens (k := s.cfg.codes) (c := 0)).restFits r h
  | scmdListen m => exact (CommandRow.listen (k := s.cfg.codes) (c := 0)).restFits r h
  | scmdConnect m => exact (CommandRow.connect (k := s.cfg.codes) (c := 0)).restFits r h
  | scmdDiscon m => exact (CommandRow.discon (k := s.cfg.codes) (c := 0)).restFits r h
  | scmdClose m => exact (CommandRow.close (k := s.cfg.codes) (c := 0)).restFits r h
  | scmdSend m => exact (CommandRow.send (k := s.cfg.codes) (c := 0)).restFits r h
  | scmdSendMac m => exact (CommandRow.sendMac (k := s.cfg.codes) rfl).restFits r h
  | scmdSendKeep m => exact (CommandRow.sendKeep (k := s.cfg.codes) rfl).restFits r h
  | scmdRecv m => exact (CommandRow.recv (k := s.cfg.codes) (c := 0)).restFits r h
  | scmdUnrecognised m c => exact (CommandRow.unrecognised (k := s.cfg.codes)).restFits r h
  | smodeTcp m hi => exact restFits_open r h (fun u w => openTcp_windowed w m) (openTcp_onlyWindow m)
  | smodeUdp m hi => exact restFits_open r h (fun u w => openUdp_windowed w m) (openUdp_onlyWindow m)
  | smodeIpraw m hi => exact restFits_open r h (fun u w => openIpraw_windowed w m) (openIpraw_onlyWindow m)
  | smodeMacraw m hi | smodePppoe m hi | smodeOther m hi p =>
    exact restFits_open (rule := openUnsupported m) r h (fun u w => w.ignoreCommand m) fun u => rfl
  | ctlUdpbindDone m a =>
    cases h
    split
    · exact r.bindDone m a
    · exact r
  | ctlListenDone m a draw =>
    cases h
    split
    · exact r.listenDone m a draw
    · exact r
  | ctlConnectDone m a =>
    by_cases connecting : ∃ ms, (s.sock m).op = .connect ms
    · obtain ⟨ms, connecting⟩ := connecting
      cases (exec_ctlConnectDone_connecting m a ms s alive connecting).symm.trans h
      exact r.connectDone m ms a
    · cases (exec_ctlConnectDone_other m a s (not_exists.mp connecting)).symm.trans h
      exact r
  | ctlSendDone m ok keep =>
    cases h
    split
    · exact r.sendDone m ok keep
    · exact r
  | ctlCloseDone m =>
    by_cases closing : ∃ had, (s.sock m).op = .close had
    · obtain ⟨had, closing⟩ := closing
      cases (exec_ctlCloseDone_close m had s alive closing).symm.trans h
      exact r.closeDone m had
    · cases (exec_ctlCloseDone_other m s (not_exists.mp closing)).symm.trans h
      exact r
  | rxTcp m avail k => exact restFits_of_next h r (r.rxTcpRule m avail k)
  | rxUdp m ip port payload => exact restFits_of_next h r (r.rxUdpRule m ip port payload)
  | rxEof m => exact restFits_of_next h r (r.rxEofRule m)
  | rxError m keep => exact restFits_of_next h r (r.rxErrorRule m keep)
  | rxDhcpDeliver m => exact restFits_of_next h r (r.deliverRule m)
  | rxIpraw m => exact restFits_of_next h r (r.rxIprawRule m)
  | probeDone p reachable =>
    exact restFits_of_next h r ⟨by rw [probeRule_rest]; exact r.1, r.2.probeRule p reachable⟩
  | pingExpire p => exact restFits_of_next h r ⟨by rw [pingExpireRule_rest]; exact r.1, r.2.pingExpireRule p⟩
  | dhcpExpire => exact restFits_of_next h r ⟨by rw [expireRule_rest]; exact r.1, r.2.expireRule⟩
  | dhcpDiscover m f =>
    exact restFits_of_next h r ⟨by rw [discoverRule_rest]; exact r.1, r.2.discoverRule m f carries⟩
  | dhcpRequest m f => exact restFits_of_next h r ⟨by rw [requestRule_rest]; exact r.1, r.2.requestRule m f⟩
  | icmpEchoRequest m payload => exact restFits_of_next h r ⟨r.1, r.2.pingRule m payload carries⟩
  | dhcpOther | dhcpInvalid | icmpOther => cases h; exact r
  | fWrbytes data => exact absurd rfl (noBlock data)
  | fRdbytes count =>
    exact restFits_of_access h ((r.answer (readRun s count.toNat s.fa.addr)).withFa rfl r.2.facade.2)
  | fSetaddr a => exact restFits_of_access h ((r.answer []).withFa rfl r.2.facade.2)
  | fGetaddr | fRdtimer | fSwver | fHwver | fLink | fId | fErrcnt => exact restFits_of_access h (r.answer _)
  | fUnknown op => exact restFits_of_access h ((r.answer []).withFa rfl r.2.facade.2)
  | fWrip slot ip =>
    refine restFits_of_whenAlive h fun e => ?_
    simp only at e
    split at e
    all_goals
      cases e
      exact (r.answer []).withFa rfl r.2.facade.2
  | fRdip slot =>
    refine restFits_of_whenAlive h fun e => ?_
    split at e
    · cases e
      exact r.answer _
    · cases e
      exact (r.answer [0, 0, 0, 0]).withFa rfl r.2.facade.2
  | fPortno => exact restFits_fPortno r h
  | lifeSoft => exact restFits_of_next h r ⟨r.1.lifeSoft, r.2.lifeSoft⟩
  | lifeColdOn => exact restFits_of_next h r ⟨r.1.coldOn, r.2.coldOn⟩
  | lifePowerOff => exact restFits_of_next h r ⟨r.1.powerOff, sidesFit_powerOff s⟩
  | lifeDestroy => exact restFits_of_next h r ⟨r.1.destroy, r.2.destroy⟩

/-- Every instruction but a block write keeps the invariant. -/
theorem exec_inv_noBlock (i : Instr) (carries : Carries i) (h : exec i s = .next t)
    (noBlock : ∀ data, i ≠ .fWrbytes data) (inv : s.Inv) : t.Inv := by
  cases alive : s.alive with
  | false => exact exec_next_dead alive h ▸ inv
  | true =>
    exact inv_of_parts (exec_restFits_alive i carries h noBlock inv.restFits alive)
      ((exec_moves i h noBlock).recordsFit inv.config inv.recordsFit)

/-- The records are those of `s`, and the rest fits. -/
theorem inv_of_untouched (inv : s.Inv) (rest : t.RestFits) (socks : t.socks = s.socks) (mem : t.mem = s.mem)
    (cfg : t.cfg = s.cfg) (next : t.nextHandle = s.nextHandle) : t.Inv :=
  inv_of_parts rest ((Moves.untouched (i := .rd 0) socks mem cfg next).recordsFit inv.config inv.recordsFit)

theorem State.Inv.withFa (inv : s.Inv) {f : Facade} (phase : phaseFits s.cfg.ops f.phase = true)
    (start : f.t0 ≤ s.now) : (s.withFa f).Inv :=
  inv_of_untouched inv (inv.restFits.withFa phase start) rfl rfl rfl rfl

/-- What a block write leaves alone: facade and time. -/
theorem busWrites_frame {data : List Byte} {a : Half} (written : busWrites a data s = .next t) :
    t.fa = s.fa ∧ t.now = s.now ∧ t.cfg = s.cfg := by
  have chain := busWrites_chain data a written
  clear written
  induction chain with
  | refl => exact ⟨rfl, rfl, rfl⟩
  | tail _ last ih =>
    obtain ⟨-, j, -, one⟩ := last
    obtain ⟨-, only | rfl⟩ := busWrite_frame one
    · rw [only]
      exact ih
    · rw [State.softReset_fa, State.softReset_now, State.softReset_cfg]
      exact ih

/-- A chain of bus writes keeps the invariant. -/
theorem busWrites_inv {data : List Byte} {a : Half} (written : busWrites a data s = .next t) (inv : s.Inv) : t.Inv := by
  have chain := busWrites_chain data a written
  clear written
  induction chain with
  | refl => exact inv
  | tail _ last ih =>
    obtain ⟨-, j, -, one⟩ := last
    exact exec_inv_noBlock (.wr _ _) trivial one nofun ih

theorem exec_inv (i : Instr) (carries : Carries i) (h : exec i s = .next t) (inv : s.Inv) : t.Inv := by
  by_cases block : ∃ data, i = .fWrbytes data
  · obtain ⟨data, rfl⟩ := block
    obtain ⟨-, u, written, rfl⟩ := exec_fWrbytes_next h
    obtain ⟨-, now, -⟩ := busWrites_frame written
    exact (busWrites_inv written inv).withFa rfl (now ▸ inv.facade.2)
  · exact exec_inv_noBlock i carries h (not_exists.mp block) inv

end

end Sys2Proof.Machine
end

section
/-! SUPPORT. 47_firmware_facade.md R361, R363: what one byte for the facade's parser does. -/
namespace Sys2Proof.Machine

open Sys2Proof

/-- The instructions a command with all its arguments may stand for (R362), F_WRBYTES apart. -/
inductive FacadeRow : Instr → Prop
  | rdbytes (count : Half) : FacadeRow (.fRdbytes count)
  | setaddr (addr : Half) : FacadeRow (.fSetaddr addr)
  | getaddr : FacadeRow .fGetaddr
  | rdtimer : FacadeRow .fRdtimer
  | wrip (slot : Byte) (ip : Quad) : FacadeRow (.fWrip slot ip)
  | rdip (slot : Byte) : FacadeRow (.fRdip slot)
  | portno : FacadeRow .fPortno
  | swver : FacadeRow .fSwver
  | hwver : FacadeRow .fHwver
  | link : FacadeRow .fLink
  | id : FacadeRow .fId
  | errcnt : FacadeRow .fErrcnt
  | unknown (op : Byte) : FacadeRow (.fUnknown op)

theorem facadeRow_decodeCommand {o : Config.Opcodes} {op : Byte} {args : List Byte} {i : Instr}
    (decoded : decodeCommand o op args = .ok i) : FacadeRow i := by
  unfold decodeCommand at decoded
  split at decoded
  · cases decoded
  · split at decoded
    · split_ifs at decoded <;> cases decoded
      exacts [.getaddr, .rdtimer, .portno, .swver, .hwver, .link, .id, .errcnt, .unknown op]
    · split_ifs at decoded
      cases decoded
      exact .rdip _
    · split_ifs at decoded <;> cases decoded
      exacts [.rdbytes _, .setaddr _]
    · split_ifs at decoded
      cases decoded
      exact .wrip _ _
    · cases decoded

section
variable {s t : State}

/-- A command with its arguments runs as the instruction it decodes to. -/
theorem completeCommand_decoded {op : Byte} {args : List Byte} {i : Instr} (noBlock : op ≠ s.cfg.ops.wrbytes)
    (decoded : decodeCommand s.cfg.ops op args = .ok i) : completeCommand op args s = exec i s := by
  refine (if_neg noBlock : completeCommand op args s = _).trans ?_
  rw [decoded]
  cases facadeRow_decodeCommand decoded <;> rfl

/-- Other arguments than R362 lists count as an unknown opcode. -/
theorem completeCommand_wrong {op : Byte} {args : List Byte} {e : DecodeError} (noBlock : op ≠ s.cfg.ops.wrbytes)
    (wrong : decodeCommand s.cfg.ops op args = .error e) : completeCommand op args s = exec (.fUnknown op) s := by
  refine (if_neg noBlock : completeCommand op args s = _).trans ?_
  rw [wrong]
  rfl

theorem completeCommand_block (lo hi : Byte) :
    completeCommand s.cfg.ops.wrbytes [lo, hi] s = .next (s.beginData (half hi lo).toNat) :=
  if_pos rfl

/-- What completing a command does: its instruction runs, or the data of a block write follow. -/
theorem completeCommand_cases {op : Byte} {args : List Byte} (h : completeCommand op args s = .next t)
    (alive : s.alive = true) :
    (∃ i, FacadeRow i ∧ exec i s = .next t) ∨ ∃ count < 65536, t = s.beginData count := by
  by_cases block : op = s.cfg.ops.wrbytes
  · have begins := (if_pos block : completeCommand op args s = _).symm.trans h
    split at begins
    · cases begins
      exact .inr ⟨_, BitVec.isLt _, rfl⟩
    · exact .inl ⟨.fUnknown op, .unknown op, (whenAlive_alive s _ alive).trans begins⟩
  · cases decoded : decodeCommand s.cfg.ops op args with
    | ok i => exact .inl ⟨i, facadeRow_decodeCommand decoded, completeCommand_decoded block decoded ▸ h⟩
    | error e => exact .inl ⟨.fUnknown op, .unknown op, completeCommand_wrong block decoded ▸ h⟩

/-- What a byte for the facade does (R363): it is stored, completes a command, or is a data byte of a block write. -/
theorem feedByte_cases {b : Byte} (h : feedByte b s = .next t) :
    (∃ i, FacadeRow i ∧ exec i s = .next t)
      ∨ (∃ f, t = s.withFa f ∧ f.t0 = s.fa.t0
          ∧ (phaseFits s.cfg.ops s.fa.phase = true → phaseFits s.cfg.ops f.phase = true))
      ∨ ∃ u f, busWrite s.fa.addr b s = .next u ∧ t = u.withFa f ∧ f.t0 = u.fa.t0
          ∧ (phaseFits s.cfg.ops s.fa.phase = true → phaseFits s.cfg.ops f.phase = true) := by
  cases alive : s.alive with
  | false => cases (whenAlive_dead s _ alive).symm.trans h
  | true =>
    have completed {op : Byte} {args : List Byte} (e : completeCommand op args s = .next t) :
        (∃ i, FacadeRow i ∧ exec i s = .next t)
          ∨ ∃ f, t = s.withFa f ∧ f.t0 = s.fa.t0
            ∧ (phaseFits s.cfg.ops s.fa.phase = true → phaseFits s.cfg.ops f.phase = true) := by
      refine (completeCommand_cases e alive).imp id ?_
      rintro ⟨count, lt, rfl⟩
      refine ⟨_, rfl, rfl, fun _ => ?_⟩
      simp only
      split
      · rfl
      case isFalse some => simp [phaseFits, lt, Nat.pos_of_ne_zero some]
    have run := (whenAlive_alive s _ alive).symm.trans h
    split at run
    case h_1 =>
      split at run
      · exact (completed run).imp id .inl
      case isFalse some =>
        cases run
        refine .inr (.inl ⟨_, rfl, rfl, fun _ => ?_⟩)
        simp [phaseFits, Nat.pos_of_ne_zero some]
    case h_2 =>
      split at run
      case isTrue more =>
        cases run
        exact .inr (.inl ⟨_, rfl, rfl, fun _ => by simpa [phaseFits] using more⟩)
      · exact (completed run).imp id .inl
    case h_3 left data =>
      unfold dataByte at run
      split at run
      case h_1 u written =>
        cases run
        refine .inr (.inr ⟨u, _, written, rfl, rfl, fun fits => ?_⟩)
        simp only
        split
        · rfl
        case isFalse more =>
          simp only [data, phaseFits, Bool.and_eq_true, decide_eq_true_eq] at fits ⊢
          omega
      all_goals cases run

end

end Sys2Proof.Machine
end

section
/-! SUPPORT. 20_memory.md R86, 10_state.md section 4: the invariant is kept by every step. -/
namespace Sys2Proof.Machine

open Sys2Proof

section
variable {s t : State}

theorem FacadeRow.carries {i : Instr} (row : FacadeRow i) : Carries i := by
  cases row <;> trivial

theorem FacadeRow.noBlock {i : Instr} (row : FacadeRow i) : ∀ data, i ≠ .fWrbytes data := by
  cases row <;> nofun

theorem FacadeRow.access {i : Instr} (row : FacadeRow i) : isAccess i = true := by
  cases row <;> rfl

theorem feedByte_inv {b : Byte} (h : feedByte b s = .next t) (inv : s.Inv) : t.Inv := by
  rcases feedByte_cases h with ⟨i, row, next⟩ | ⟨f, rfl, start, phase⟩ | ⟨u, f, written, rfl, start, phase⟩
  · exact exec_inv i row.carries next inv
  · exact inv.withFa (phase inv.facade.1) (start ▸ inv.facade.2)
  · have kept := exec_inv (.wr s.fa.addr b) trivial written inv
    refine kept.withFa ?_ (start ▸ kept.facade.2)
    rw [busWrite_cfg written]
    exact phase inv.facade.1

theorem feed_inv (bytes : List Byte) (h : feed bytes s = .next t) (inv : s.Inv) : t.Inv := by
  induction bytes generalizing s with
  | nil =>
    cases alive : s.alive with
    | false => cases (whenAlive_dead s _ alive).symm.trans h
    | true =>
      cases (feed_nil s alive).symm.trans h
      exact inv
  | cons b bs ih =>
    rw [feed_cons] at h
    split at h
    case h_1 u first => exact ih h (feedByte_inv first inv)
    all_goals cases h

/-! ## Units -/

/-- What the decoder answers carries what its format says, and is no block write unless it is a facade command. -/
structure Decoded (i : Instr) : Prop where
  carries : Carries i
  noBlock : ∀ data, i ≠ .fWrbytes data

theorem decoded_decodeBus (m : Config.AddressMap) (r : BitVec 25) : Decoded (decodeBus m r) := by
  unfold decodeBus
  extract_lets addr data
  split
  · split <;> exact ⟨trivial, nofun⟩
  · exact ⟨trivial, nofun⟩

theorem CommandRow.decoded {k : Config.Codes} {n : SockId} {c : Byte} {i : Instr} (row : CommandRow k n c i) :
    Decoded i := by
  cases row <;> exact ⟨trivial, nofun⟩

theorem ModeArm.decoded {k : Config.Codes} {n : SockId} {p : BitVec 4} {i : Instr} (arm : ModeArm k n p i) :
    Decoded i := by
  cases arm <;> exact ⟨trivial, nofun⟩

theorem decoded_decodeDhcp (n : SockId) (data : List Byte) : Decoded (decodeDhcp n data) := by
  refine ⟨carries_decodeDhcp n data, fun block => ?_⟩
  unfold decodeDhcp
  split
  · nofun
  · split_ifs <;> nofun

theorem decoded_decodeIcmp (n : SockId) (proto : Byte) (data : List Byte) : Decoded (decodeIcmp n proto data) := by
  refine ⟨carries_decodeIcmp n proto data, fun block => ?_⟩
  unfold decodeIcmp
  split <;> nofun

theorem decoded_decodeEvent (e : Event) : Decoded (decodeEvent e) := by
  cases e <;> exact ⟨trivial, nofun⟩

theorem decoded_decodeLife (r : LifeReq) : Decoded (decodeLife r) := by
  cases r <;> exact ⟨trivial, nofun⟩

/-- A unit is a facade command, or runs the instruction it decodes to. -/
theorem accept_op (p : Packet) (s : State) :
    (∃ bytes, p = .fcmd bytes) ∨ ∃ i, Decoded i ∧ decode s.cfg p = .ok i ∧ accept (.op p) s = exec i s := by
  cases p with
  | bus r => exact .inr ⟨_, decoded_decodeBus _ r, rfl, rfl⟩
  | scmd n c => exact .inr ⟨_, (commandRow_decodeScmd _ n c).decoded, rfl, rfl⟩
  | smode n m => exact .inr ⟨_, (modeArm_decodeSmode _ n m).decoded, rfl, rfl⟩
  | dhcpin n data => exact .inr ⟨_, decoded_decodeDhcp n data, rfl, rfl⟩
  | icmpin n proto payload => exact .inr ⟨_, decoded_decodeIcmp n proto payload, rfl, rfl⟩
  | fcmd bytes => exact .inl ⟨bytes, rfl⟩
  | event e => exact .inr ⟨_, decoded_decodeEvent e, rfl, rfl⟩
  | life r => exact .inr ⟨_, decoded_decodeLife r, rfl, rfl⟩

/-- What a step on a port or a line leaves alone. -/
structure Quiet (s t : State) : Prop where
  socks : t.socks = s.socks
  mem : t.mem = s.mem
  cfg : t.cfg = s.cfg
  tokens : t.nextHandle = s.nextHandle
  dhcp : t.dhcp = s.dhcp
  pings : t.pings = s.pings
  prov : t.prov = s.prov
  released : t.released = s.released
  phase : t.fa.phase = s.fa.phase
  start : t.fa.t0 = s.fa.t0
  now : s.now ≤ t.now

theorem Quiet.inv (quiet : Quiet s t) (inv : s.Inv) : t.Inv := by
  have rest := inv.restFits
  refine inv_of_untouched inv ⟨?_, ?_, ?_, ?_, ?_⟩ quiet.socks quiet.mem quiet.cfg quiet.tokens
  · rw [State.Windowed, quiet.cfg, quiet.mem]
    exact rest.1
  · rw [quiet.dhcp, quiet.cfg]
    exact rest.2.dhcp
  · rw [quiet.pings]
    exact rest.2.pings
  · rw [quiet.prov, quiet.released]
    exact rest.2.ports
  · rw [quiet.cfg, quiet.phase, quiet.start]
    exact ⟨rest.2.facade.1, rest.2.facade.2.trans quiet.now⟩

/-- A new schedule. -/
theorem quiet_inputs (s : State) (rest : List Stimulus) : Quiet s { s with inputs := rest } :=
  ⟨rfl, rfl, rfl, rfl, rfl, rfl, rfl, rfl, rfl, rfl, Nat.le_refl _⟩

theorem quiet_of_whenAlive {r : Result} (h : whenAlive s r = .next t) (quiet : r = .next t → Quiet s t) :
    Quiet s t := by
  unfold whenAlive at h
  split at h
  · exact quiet h
  · cases h

/-- A stimulus that is no unit. -/
theorem accept_quiet {i : Stimulus} (noUnit : ∀ p, i ≠ .op p) (h : accept i s = .next t) : Quiet s t := by
  cases i with
  | op p => exact absurd rfl (noUnit p)
  | portRead =>
    refine quiet_of_whenAlive h fun e => ?_
    split at e <;> cases e <;> exact ⟨rfl, rfl, rfl, rfl, rfl, rfl, rfl, rfl, rfl, rfl, Nat.le_refl _⟩
  | statusRead | statusWrite b =>
    refine quiet_of_whenAlive h fun e => ?_
    cases e
    exact ⟨rfl, rfl, rfl, rfl, rfl, rfl, rfl, rfl, rfl, rfl, Nat.le_refl _⟩
  | tick ms =>
    cases h
    exact ⟨rfl, rfl, rfl, rfl, rfl, rfl, rfl, rfl, rfl, rfl, Nat.le_add_right _ _⟩
  | seedLine | linkLine | portLine =>
    cases h
    exact ⟨rfl, rfl, rfl, rfl, rfl, rfl, rfl, rfl, rfl, rfl, Nat.le_refl _⟩

theorem accept_inv {i : Stimulus} (h : accept i s = .next t) (inv : s.Inv) : t.Inv := by
  by_cases unit : ∃ p, i = .op p
  · obtain ⟨p, rfl⟩ := unit
    rcases accept_op p s with ⟨bytes, rfl⟩ | ⟨j, decoded, -, runs⟩
    · exact feed_inv bytes h inv
    · exact exec_inv j decoded.carries (runs ▸ h) inv
  · exact (accept_quiet (not_exists.mp unit) h).inv inv

/-- A step accepts the head of the schedule, or does nothing. -/
theorem step_cases (h : step s = .next t) :
    (s.inputs = [] ∧ t = s)
      ∨ ∃ i rest, s.inputs = i :: rest ∧ accept i { s with inputs := rest } = .next t := by
  unfold step at h
  split at h
  case h_1 empty => exact .inl ⟨empty, (Host.Outcome.next.inj h).symm⟩
  case h_2 i rest inputs => exact .inr ⟨i, rest, inputs, h⟩

/-- Settles O57: units run instructions, whose moves keep the records and whose writes keep the rest; ports and lines
touch neither. -/
theorem everyStepKeepsTheInvariant : Obligations.EveryStepKeepsTheInvariant := by
  intro s t inv h
  rcases step_cases h with ⟨-, rfl⟩ | ⟨i, rest, -, accepted⟩
  · exact inv
  · exact accept_inv accepted ((quiet_inputs s rest).inv inv)

/-! ## The machine after reset -/

/-- Settles O56: every clause is a finite fact about the state after reset. -/
theorem resetSatisfiesTheInvariant : Obligations.ResetSatisfiesTheInvariant := by
  refine ⟨?_, ?_⟩
  · exact {
      config := ⟨rfl, rfl, rfl⟩
      memWf := by decide
      memStored := by decide
      resetBit := by decide
      socks := by decide
      commands := by decide
      handles := by decide
      dhcp := nofun
      pings := nofun
      ports := by decide
      facade := by decide }
  · unfold State.rxBounded
    decide

/-! ## The receive rings (R61 (f)) -/

/-- A move leaves at most the bytes that were there, or adds a receive its ring has room for. -/
theorem RecordMove.rxUsed {i : Instr} {n : SockId} {k : Sock} {cr : Option Byte} {tokens : Nat}
    (move : RecordMove s i n k cr tokens) :
    (k.rxWr - k.rxRd).toNat ≤ s.rxUsed n
      ∨ (isAccess i = false ∧
          (s.Inv → s.rxUsed n ≤ s.rxSize n → (k.rxWr - k.rxRd).toNat ≤ s.rxSize n)) := by
  cases move with
  | same | ignored | abandoned | acknowledged | txCommitted | listens | connects | closes | sends | releases | unkept
  | arms | bound | timedOut | unheard | accepted | connected | sent | closed | ended | receiveFailed =>
    exact .inl (Nat.le_refl _)
  | rxCommitted p within =>
    refine .inl ?_
    unfold State.rxUsed at within ⊢
    simp only
    bv_omega
  | opened x recv o cr =>
    have empty : (((s.sock n).opened x recv o).rxWr - ((s.sock n).opened x recv o).rxRd).toNat = 0 := by
      rw [Sock.opened, BitVec.sub_self]
      rfl
    exact .inl (empty ▸ Nat.zero_le _)
  | received len outside room =>
    refine .inr ⟨outside, fun inv bounded => ?_⟩
    have free := room inv
    have size := rxSize_le s n
    unfold State.rxFree at free
    unfold State.rxUsed at free bounded
    simp only
    bv_omega

theorem rxUsed_of_socks {n : SockId} (socks : t.socks = s.socks) : t.rxUsed n = s.rxUsed n := by
  rw [State.rxUsed, State.sock, socks]
  rfl

/-- An access leaves at most the bytes that were there. -/
theorem Moves.rxUsed_access {i : Instr} (moves : Moves s i t) (access : isAccess i = true) (n : SockId) :
    t.rxUsed n ≤ s.rxUsed n := by
  rcases moves with ⟨m, k, cr, tokens, move, step⟩ | ⟨-, reset⟩
  · by_cases here : n = m
    · subst here
      rw [State.rxUsed, step.record]
      rcases move.rxUsed with le | ⟨outside, -⟩
      · exact le
      · rw [access] at outside
        cases outside
    · rw [State.rxUsed, step.otherRecords n here]
      exact Nat.le_refl _
  · rw [State.rxUsed, reset.records]
    exact Nat.zero_le _

/-- No instruction leaves more than the ring held room for before. -/
theorem Moves.rxUsed_le {i : Instr} (moves : Moves s i t) (inv : s.Inv) (bounded : s.rxBounded) (n : SockId) :
    t.rxUsed n ≤ s.rxSize n := by
  rcases moves with ⟨m, k, cr, tokens, move, step⟩ | ⟨-, reset⟩
  · by_cases here : n = m
    · subst here
      rw [State.rxUsed, step.record]
      rcases move.rxUsed with le | ⟨-, fits⟩
      · exact le.trans (bounded n)
      · exact fits inv (bounded n)
    · rw [State.rxUsed, step.otherRecords n here]
      exact bounded n
  · rw [State.rxUsed, reset.records]
    exact Nat.zero_le _

/-- A byte for the facade is an access. -/
theorem feedByte_rxUsed {b : Byte} (h : feedByte b s = .next t) (n : SockId) : t.rxUsed n ≤ s.rxUsed n := by
  rcases feedByte_cases h with ⟨i, row, next⟩ | ⟨f, rfl, -⟩ | ⟨u, f, written, rfl, -⟩
  · exact (exec_moves i next row.noBlock).rxUsed_access row.access n
  · exact Nat.le_refl _
  · exact (exec_moves (.wr s.fa.addr b) written nofun).rxUsed_access rfl n

theorem feed_rxUsed (bytes : List Byte) (h : feed bytes s = .next t) (n : SockId) : t.rxUsed n ≤ s.rxUsed n := by
  induction bytes generalizing s with
  | nil =>
    cases alive : s.alive with
    | false => cases (whenAlive_dead s _ alive).symm.trans h
    | true =>
      cases (feed_nil s alive).symm.trans h
      exact Nat.le_refl _
  | cons b bs ih =>
    rw [feed_cons] at h
    split at h
    case h_1 u first => exact (ih h).trans (feedByte_rxUsed first n)
    all_goals cases h

theorem accept_rxUsed {i : Stimulus} (h : accept i s = .next t) (inv : s.Inv) (bounded : s.rxBounded) (n : SockId) :
    t.rxUsed n ≤ s.rxSize n := by
  by_cases unit : ∃ p, i = .op p
  · obtain ⟨p, rfl⟩ := unit
    rcases accept_op p s with ⟨bytes, rfl⟩ | ⟨j, decoded, -, runs⟩
    · exact (feed_rxUsed bytes h n).trans (bounded n)
    · exact (exec_moves j (runs ▸ h) decoded.noBlock).rxUsed_le inv bounded n
  · exact (rxUsed_of_socks (accept_quiet (not_exists.mp unit) h).socks).le.trans (bounded n)

theorem State.rxSize_tabled (s : State) (h : s.cfg.Tabled) (n : SockId) :
    s.rxSize n = effectiveSize 8192 (s.load 0x001A) n := by
  rw [State.rxSize, h.map]
  rfl

/-- Settles O58: what is in a ring after a step had room in it before, and its size follows the selectors. -/
theorem receiveRingsNeverOverflow : Obligations.ReceiveRingsNeverOverflow := by
  intro s t inv bounded h selectors n
  have size : t.rxSize n = s.rxSize n := by
    rw [t.rxSize_tabled (everyStepKeepsTheInvariant s t inv h).config, s.rxSize_tabled inv.config, selectors]
  rw [size]
  rcases step_cases h with ⟨-, rfl⟩ | ⟨i, rest, -, accepted⟩
  · exact bounded n
  · exact accept_rxUsed accepted ((quiet_inputs s rest).inv inv) bounded n

end

end Sys2Proof.Machine
end

section
/-! SUPPORT. 20_memory.md R86: no rule a facade byte can run looks at the rest of the schedule. -/
namespace Sys2Proof.Machine

open Sys2Proof

/-- One operation after another: what stops the first stops both. -/
def andThen (r : Result) (op : State → Result) : Result :=
  match r with
  | .next t => op t
  | .fault e => .fault e
  | .refused e => .refused e

theorem andThen_assoc (r : Result) (f g : State → Result) :
    andThen (andThen r f) g = andThen r fun t => andThen (f t) g := by
  cases r <;> rfl

/-- The state with its schedule replaced. -/
def State.withInputs (s : State) (rest : List Stimulus) : State := { s with inputs := rest }

section
variable {rest : List Stimulus}

/-- `Commutes` for the schedule and an operation that may be refused. -/
def ResultCommutes (rest : List Stimulus) (op : State → Result) : Prop :=
  ∀ s, op (s.withInputs rest) = andThen (op s) fun t => .next (t.withInputs rest)

theorem Commutes.next {rule : State → State} (h : Commutes (State.withInputs · rest) rule) :
    ResultCommutes rest fun s => .next (rule s) :=
  fun s => congrArg Host.Outcome.next (h s)

theorem Commutes.comp {u g h : State → State} (hg : Commutes u g) (hh : Commutes u h) : Commutes u fun s => g (h s) :=
  fun s => (congrArg g (hh s)).trans (hg (h s))

theorem ResultCommutes.guarded {p : State → Prop} [DecidablePred p] {g h : State → Result}
    (blind : ∀ s, p (s.withInputs rest) ↔ p s) (hg : ResultCommutes rest g) (hh : ResultCommutes rest h) :
    ResultCommutes rest fun s => if p s then g s else h s := by
  intro s
  simp only [blind s, hg s, hh s]
  exact (apply_ite (andThen · _) _ _ _).symm

theorem whenAlive_commutes {op : State → Result} (h : ResultCommutes rest op) :
    ResultCommutes rest fun s => whenAlive s (op s) :=
  .guarded (p := fun s => s.alive = true) (fun _ => .rfl) h fun _ => rfl

/-! ## Socket commands -/

theorem openTcp_commutes (n : SockId) : Commutes (State.withInputs · rest) (openTcp n) :=
  .guarded (p := fun s => s.mayOpen n = true) (fun _ => .rfl) (fun _ => rfl) fun _ => rfl

theorem openUdp_commutes (n : SockId) : Commutes (State.withInputs · rest) (openUdp n) :=
  .guarded (p := fun s => s.mayOpen n = true) (fun _ => .rfl) (fun _ => rfl) fun _ => rfl

theorem openIpraw_commutes (n : SockId) : Commutes (State.withInputs · rest) (openIpraw n) :=
  .guarded (p := fun s => s.mayOpen n = true) (fun _ => .rfl) (fun _ => rfl) fun _ => rfl

theorem openByMode_commutes (n : SockId) : Commutes (State.withInputs · rest) (openByMode n) := by
  intro s
  have mode : decodeSmode (s.withInputs rest).cfg.codes n ((s.withInputs rest).sMr n)
      = decodeSmode s.cfg.codes n (s.sMr n) := rfl
  simp only [openByMode, mode]
  split
  · exact openTcp_commutes n s
  · exact openUdp_commutes n s
  · exact openIpraw_commutes n s
  · rfl

theorem listenRule_commutes (n : SockId) : Commutes (State.withInputs · rest) (listenRule n) :=
  .guarded (p := fun s => (s.sock n).status = .init) (fun _ => .rfl) (fun _ => rfl) fun _ => rfl

theorem connectRule_commutes (n : SockId) : Commutes (State.withInputs · rest) (connectRule n) :=
  .guarded (p := fun s => (s.sock n).status = .init) (fun _ => .rfl) (fun _ => rfl) fun _ => rfl

theorem startClose_commutes (n : SockId) (v : Byte) : Commutes (State.withInputs · rest) (startClose n v) :=
  .guarded (p := fun s => (s.sock n).status = .closed) (fun _ => .rfl) (fun _ => rfl) fun _ => rfl

theorem sendRule_commutes (n : SockId) : ResultCommutes rest (sendRule n) :=
  .guarded (p := fun s => transfers (s.sock n).status = true) (fun _ => .rfl)
    (.guarded (p := fun s => s.txSize n < s.txUsed n) (fun _ => .rfl) (fun _ => rfl) fun _ => rfl) fun _ => rfl

theorem sendMacRule_commutes (n : SockId) : Commutes (State.withInputs · rest) (sendMacRule n) :=
  .guarded (p := fun s => keeps (s.sock n).status = true) (fun _ => .rfl) (fun _ => rfl) fun _ => rfl

theorem sendKeepRule_commutes (n : SockId) : Commutes (State.withInputs · rest) (sendKeepRule n) :=
  .guarded (p := fun s => keeps (s.sock n).status = true) (fun _ => .rfl)
    (.guarded (p := fun s => (s.sock n).conn = none) (fun _ => .rfl) (fun _ => rfl) fun _ => rfl) fun _ => rfl

theorem recvRule_commutes (n : SockId) : Commutes (State.withInputs · rest) (recvRule n) :=
  .guarded (p := fun s => transfers (s.sock n).status = true) (fun _ => .rfl) (fun _ => rfl) fun _ => rfl

/-- R200: the dispatcher looks at the operation in flight only. -/
theorem dispatch_commutes (closing : Bool) (n : SockId) {rule : State → Result} (h : ResultCommutes rest rule) :
    ResultCommutes rest (dispatch closing n rule) := by
  intro s
  have op : ((s.withInputs rest).sock n).op = (s.sock n).op := rfl
  have alive : (s.withInputs rest).alive = s.alive := rfl
  have abandoned : (s.withInputs rest).setOp n .none = (s.setOp n .none).withInputs rest := rfl
  simp only [dispatch, op, alive, abandoned, h _]
  cases s.alive with
  | false => rfl
  | true =>
    cases (s.sock n).op with
    | none => rfl
    | close had => cases closing <;> rfl
    | udpBind | listen | connect _ | send => cases closing <;> rfl

theorem commandWrite_commutes (n : SockId) (v : Byte) : ResultCommutes rest (commandWrite n v) := by
  intro s
  have code : decodeScmd (s.withInputs rest).cfg.codes n v = decodeScmd s.cfg.codes n v := rfl
  simp only [commandWrite, code]
  split
  · exact whenAlive_commutes (op := .next) (fun _ => rfl) s
  · exact dispatch_commutes _ n (openByMode_commutes n).next s
  · exact dispatch_commutes _ n (listenRule_commutes n).next s
  · exact dispatch_commutes _ n (connectRule_commutes n).next s
  · exact dispatch_commutes _ n (startClose_commutes n s.cfg.codes.cmdDiscon).next s
  · exact dispatch_commutes _ n (startClose_commutes n s.cfg.codes.cmdClose).next s
  · exact dispatch_commutes _ n (sendRule_commutes n) s
  · exact dispatch_commutes _ n (sendMacRule_commutes n).next s
  · exact dispatch_commutes _ n (sendKeepRule_commutes n).next s
  · exact dispatch_commutes _ n (recvRule_commutes n).next s
  · exact dispatch_commutes _ n (rule := fun s => .next (s.ignoreCommand n)) (fun _ => rfl) s

/-! ## Bus writes (R152) -/

theorem stopSock_commutes (n : SockId) : Commutes (State.withInputs · rest) (State.stopSock · n) := by
  intro s
  simp only [State.stopSock, State.closeHandles_eq]
  rfl

theorem initAll_commutes : Commutes (State.withInputs · rest) State.initAll := by
  have cursors (n : SockId) : Commutes (State.withInputs · rest) (State.initCursors · n) := fun _ => rfl
  exact (cursors 3).comp ((cursors 2).comp ((cursors 1).comp (cursors 0)))

theorem softReset_commutes : Commutes (State.withInputs · rest) State.softReset := by
  have stopped : Commutes (State.withInputs · rest) State.stopAll :=
    (stopSock_commutes 3).comp ((stopSock_commutes 2).comp ((stopSock_commutes 1).comp (stopSock_commutes 0)))
  have mode (a : Nat) : Commutes (State.withInputs · rest) (State.poke · a 0x00) := fun _ => rfl
  have seeded : Commutes (State.withInputs · rest) State.seedRegs := fun _ => rfl
  have defaulted : Commutes (State.withInputs · rest) State.defaultRegs := fun _ => rfl
  have emptied : Commutes (State.withInputs · rest) State.emptySides := fun _ => rfl
  have afterMode := emptied.comp (initAll_commutes.comp (defaulted.comp seeded))
  exact fun s => afterMode.comp ((mode s.cfg.map.cMr).comp stopped) s

theorem busWrite_commutes (addr : Half) (v : Byte) : ResultCommutes rest (busWrite addr v) := by
  refine whenAlive_commutes fun s => ?_
  have selected : locate (s.withInputs rest).cfg.map (busAddr (s.withInputs rest).cfg.map addr)
      = locate s.cfg.map (busAddr s.cfg.map addr) := rfl
  simp only [selected]
  split
  case h_2 =>
    have mode : Commutes (State.withInputs · rest) (State.writeCMr · v) :=
      .guarded (p := fun _ => v.getLsbD 7 = true) (fun _ => .rfl) softReset_commutes fun _ => rfl
    exact mode.next s
  case h_4 n _ => exact commandWrite_commutes n v s
  case h_8 n _ =>
    have commit : ResultCommutes rest (State.commitRxRd · n v) :=
      .guarded
        (p := fun s =>
          s.rxUsed n < (half (s.load (sockAddr s.cfg.map n s.cfg.map.oRxRd)) v - (s.sock n).rxRd).toNat)
        (fun _ => .rfl) (fun _ => rfl) fun _ => rfl
    exact commit s
  all_goals rfl

end

end Sys2Proof.Machine
end

section
/-! SUPPORT. 47_firmware_facade.md R361 to R363: the bytes of a facade command, one after another. -/
namespace Sys2Proof.Machine

open Sys2Proof

/-! ## The rows beside the schedule and the parser -/

/-- The state with other unread results and another phase of the parser. -/
def State.withParser (s : State) (out : List Byte) (phase : FaPhase) : State :=
  { s with fa := { s.fa with out := out, phase := phase } }

theorem FacadeRow.exec_dead {i : Instr} (row : FacadeRow i) (s : State) (dead : s.alive = false) :
    exec i s = .refused .destroyed := by
  rw [Machine.exec_dead i s dead, if_pos row.access]

theorem readRun_withParser (rest : List Stimulus) (out : List Byte) (phase : FaPhase) (s : State) (k : Nat) (a : Half) :
    readRun ((s.withParser out phase).withInputs rest) k a = readRun s k a := by
  induction k generalizing a with
  | zero => rfl
  | succ k ih => exact congrArg (s.busRead a :: ·) (ih (a + 1))

/-- A row's instruction looks at no more of the schedule than of the results and the phase it leaves behind. -/
theorem FacadeRow.exec_withParser {i : Instr} (row : FacadeRow i) (rest : List Stimulus) (out : List Byte)
    (phase : FaPhase) (s : State) :
    exec i ((s.withParser out phase).withInputs rest) = andThen (exec i s) fun t => .next (t.withInputs rest) := by
  cases alive : s.alive with
  | false => rw [row.exec_dead s alive, row.exec_dead ((s.withParser out phase).withInputs rest) alive, andThen]
  | true =>
    have guarded {op : State → Result} (runs : ∀ u, exec i u = whenAlive u (op u))
        (same : op ((s.withParser out phase).withInputs rest) = andThen (op s) fun t => .next (t.withInputs rest)) :
        exec i ((s.withParser out phase).withInputs rest)
          = andThen (exec i s) fun t => .next (t.withInputs rest) := by
      rw [runs, runs, whenAlive_alive s _ alive, ← same]
      exact whenAlive_alive _ _ alive
    cases row with
    | rdbytes count =>
      refine guarded (fun _ => rfl) (congrArg Host.Outcome.next ?_)
      simp only [readRun_withParser]
      rfl
    | setaddr | getaddr | rdtimer | swver | hwver | link | id | errcnt | unknown => exact guarded (fun _ => rfl) rfl
    | wrip slot ip =>
      refine guarded (fun _ => rfl) ?_
      by_cases valid : slot.toNat < 8
      · rw [dif_pos valid, dif_pos valid]
        rfl
      · rw [dif_neg valid, dif_neg valid]
        rfl
    | rdip slot =>
      refine guarded (fun _ => rfl) ?_
      by_cases valid : slot.toNat < 8
      · rw [dif_pos valid, dif_pos valid]
        rfl
      · rw [dif_neg valid, dif_neg valid]
        rfl
    | portno =>
      refine guarded (fun _ => rfl) ?_
      have ports : ((s.withParser out phase).withInputs rest).prov = s.prov := rfl
      have drawn : ((s.withParser out phase).withInputs rest).portIn = s.portIn := rfl
      rw [ports, drawn]
      cases firstFreePort s.prov 65536 s.portIn <;> rfl

/-- A row's instruction leaves a live block alive. -/
theorem FacadeRow.alive {i : Instr} (row : FacadeRow i) {s t : State} (h : exec i s = .next t) : t.alive = true := by
  cases alive : s.alive with
  | false => cases (row.exec_dead s alive).symm.trans h
  | true =>
    cases row
    case wrip =>
      have run := (whenAlive_alive s _ alive).symm.trans h
      split at run <;> cases run <;> exact alive
    case rdip =>
      have run := (whenAlive_alive s _ alive).symm.trans h
      split at run <;> cases run <;> exact alive
    case portno =>
      have run := (whenAlive_alive s _ alive).symm.trans h
      split at run <;> cases run
      exact alive
    all_goals
      cases (whenAlive_alive s _ alive).symm.trans h
      exact alive

/-- An F_WRBYTES whose count is not two bytes, which the parser never collects, counts as an unknown opcode. -/
theorem completeCommand_wrongBlock {args : List Byte} {s : State} (wrong : args.length ≠ 2) :
    completeCommand s.cfg.ops.wrbytes args s = .next (s.answer []).countError := by
  refine (if_pos rfl : completeCommand s.cfg.ops.wrbytes args s = _).trans ?_
  split
  · exact absurd rfl wrong
  · rfl

/-- Completing a command looks neither at the schedule nor at what the parser held. -/
theorem completeCommand_withParser (op : Byte) (args : List Byte) (rest : List Stimulus) (out : List Byte)
    (phase : FaPhase) (s : State) :
    completeCommand op args ((s.withParser out phase).withInputs rest)
      = andThen (completeCommand op args s) fun t => .next (t.withInputs rest) := by
  by_cases block : op = s.cfg.ops.wrbytes
  · subst block
    by_cases count : ∃ lo hi, args = [lo, hi]
    · obtain ⟨lo, hi, rfl⟩ := count
      rw [completeCommand_block]
      exact completeCommand_block (s := (s.withParser out phase).withInputs rest) lo hi
    · have wrong : args.length ≠ 2 := fun two => count (List.length_eq_two.mp two)
      rw [completeCommand_wrongBlock wrong]
      exact completeCommand_wrongBlock (s := (s.withParser out phase).withInputs rest) wrong
  · have block' : op ≠ ((s.withParser out phase).withInputs rest).cfg.ops.wrbytes := block
    cases decoded : decodeCommand s.cfg.ops op args with
    | ok i =>
      rw [completeCommand_decoded block decoded, completeCommand_decoded block' decoded]
      exact (facadeRow_decodeCommand decoded).exec_withParser rest out phase s
    | error e =>
      rw [completeCommand_wrong block decoded, completeCommand_wrong block' decoded]
      exact (FacadeRow.unknown op).exec_withParser rest out phase s

/-! ## Bytes and the schedule -/

section
variable {rest : List Stimulus}

theorem dataByte_commutes (left : Nat) (d : Byte) : ResultCommutes rest (dataByte left d) := by
  intro s
  have written : busWrite (s.withInputs rest).fa.addr d (s.withInputs rest)
      = andThen (busWrite s.fa.addr d s) fun t => .next (t.withInputs rest) := busWrite_commutes s.fa.addr d s
  rw [dataByte, dataByte, written]
  cases busWrite s.fa.addr d s <;> rfl

theorem feedByte_commutes (b : Byte) : ResultCommutes rest (feedByte b) := by
  refine whenAlive_commutes fun s => ?_
  have completed (op : Byte) (args : List Byte) : completeCommand op args (s.withInputs rest)
      = andThen (completeCommand op args s) fun t => .next (t.withInputs rest) :=
    completeCommand_withParser op args rest s.fa.out s.fa.phase s
  have phase : (s.withInputs rest).fa.phase = s.fa.phase := rfl
  have ops : (s.withInputs rest).cfg.ops = s.cfg.ops := rfl
  rw [phase, ops]
  cases s.fa.phase with
  | idle =>
    by_cases none : argCount s.cfg.ops b = 0
    · simp only [if_pos none, completed]
    · simp only [if_neg none]
      rfl
  | args op bytes =>
    by_cases more : (bytes ++ [b]).length < argCount s.cfg.ops op
    · simp only [if_pos more]
      rfl
    · simp only [if_neg more, completed]
  | data left => exact dataByte_commutes left b s

theorem feed_cons_andThen (b : Byte) (bs : List Byte) (s : State) :
    feed (b :: bs) s = andThen (feedByte b s) (feed bs) := rfl

theorem feed_commutes (bytes : List Byte) : ResultCommutes rest (feed bytes) := by
  induction bytes with
  | nil => exact whenAlive_commutes (op := .next) fun _ => rfl
  | cons b bs ih =>
    intro s
    rw [feed_cons_andThen, feed_cons_andThen, feedByte_commutes b s]
    cases feedByte b s with
    | next t => exact ih t
    | fault e | refused e => rfl

end

/-- Feeding two runs one after the other is feeding them as one. -/
theorem feed_append (xs ys : List Byte) (s : State) : feed (xs ++ ys) s = andThen (feed xs s) (feed ys) := by
  induction xs generalizing s with
  | nil =>
    cases alive : s.alive with
    | false => rw [feed_dead [] s alive, List.nil_append, feed_dead ys s alive, andThen]
    | true => rw [feed_nil s alive, List.nil_append, andThen]
  | cons x xs ih =>
    rw [List.cons_append, feed_cons_andThen, feed_cons_andThen, andThen_assoc, funext ih]

/-! ## The ports (R360) -/

theorem portRead_alive (s : State) (alive : s.alive = true) :
    portRead s = .next { s with fdata := s.fa.out.headD 0x00, fa := { s.fa with out := s.fa.out.tail } } := by
  rw [portRead, whenAlive_alive s _ alive]
  split
  case h_1 none =>
    simp only [none, List.headD_nil, List.tail_nil]
    rw [← none]
  case h_2 b rest some =>
    simp only [some, List.headD_cons, List.tail_cons]

theorem facadeStatus_bits (out : List Byte) :
    (facadeStatus out).getLsbD 0 = true ∧ (facadeStatus out).getLsbD 1 = decide (out ≠ [])
      ∧ ∀ i, 2 ≤ i → (facadeStatus out).getLsbD i = false := by
  have high (v : Byte) (small : v.toNat < 4) (i : Nat) (le : 2 ≤ i) : v.getLsbD i = false :=
    Nat.testBit_lt_two_pow (Nat.lt_of_lt_of_le small (Nat.pow_le_pow_right Nat.two_pos le))
  cases out with
  | nil => exact ⟨rfl, rfl, high 0x01 (by decide)⟩
  | cons b rest =>
    have waiting : b :: rest ≠ [] := List.cons_ne_nil b rest
    rw [facadeStatus, if_neg waiting, decide_eq_true waiting]
    exact ⟨rfl, rfl, high 0x03 (by decide)⟩

/-- Settles O52: `feed` is a fold over the bytes, and no byte looks at what is scheduled after its run. -/
theorem facadeFramingIsByteWise : Obligations.FacadeFramingIsByteWise := by
  refine ⟨fun xs ys rest s => ?_, fun rest s alive => ⟨?_, ?_, fun b => ?_⟩⟩
  · have atOnce : step { s with inputs := .op (.fcmd (xs ++ ys)) :: rest }
        = andThen (feed xs (s.withInputs rest)) (feed ys) := feed_append xs ys (s.withInputs rest)
    have first : step { s with inputs := .op (.fcmd xs) :: .op (.fcmd ys) :: rest }
        = andThen (feed xs (s.withInputs rest)) fun t => .next (t.withInputs (.op (.fcmd ys) :: rest)) :=
      feed_commutes (rest := .op (.fcmd ys) :: rest) xs (s.withInputs rest)
    have kept := feed_commutes (rest := rest) xs (s.withInputs rest)
    rw [atOnce, first]
    cases fed : feed xs (s.withInputs rest) with
    | next t =>
      rw [fed] at kept
      have scheduled : t = t.withInputs rest := Host.Outcome.next.inj (fed.symm.trans kept)
      exact congrArg (feed ys) scheduled
    | fault e | refused e => rfl
  · exact portRead_alive { s with inputs := rest } alive
  · exact ⟨_, whenAlive_alive { s with inputs := rest } _ alive, facadeStatus_bits s.fa.out⟩
  · exact whenAlive_alive { s with inputs := rest } _ alive

/-! ## Decoded commands (R362) -/

section
variable {o : Config.Opcodes} {op : Byte} {args bytes : List Byte} {i : Instr}

theorem length_of_decodeCommand (decoded : decodeCommand o op args = .ok i) : args.length = argCount o op := by
  by_contra wrong
  cases (if_pos wrong : decodeCommand o op args = _).symm.trans decoded

/-- A decoded command is a block write with its data, or another opcode with its arguments. -/
theorem decodeFcmd_cases (decoded : decodeFcmd o bytes = .ok i) :
    (∃ lo hi data, bytes = o.wrbytes :: lo :: hi :: data ∧ data.length = (half hi lo).toNat ∧ i = .fWrbytes data)
      ∨ ∃ op args, bytes = op :: args ∧ op ≠ o.wrbytes ∧ decodeCommand o op args = .ok i := by
  unfold decodeFcmd at decoded
  split at decoded
  case h_1 => cases decoded
  case h_2 op args =>
    by_cases block : op = o.wrbytes
    · subst block
      rw [if_pos rfl] at decoded
      split at decoded
      case h_1 lo hi data =>
        split_ifs at decoded with count
        exact .inl ⟨lo, hi, data, rfl, count, (Except.ok.inj decoded).symm⟩
      case h_2 => cases decoded
    · rw [if_neg block] at decoded
      exact .inr ⟨op, args, rfl, block, decoded⟩

theorem decodeFcmd_access (decoded : decodeFcmd o bytes = .ok i) : isAccess i = true := by
  rcases decodeFcmd_cases decoded with ⟨_, _, _, -, -, rfl⟩ | ⟨_, _, -, -, command⟩
  · rfl
  · exact (facadeRow_decodeCommand command).access

end

/-! ## A whole command from the idle parser (R361, R363) -/

section
variable {s : State}

/-- What the parser has collected so far is not looked at when the command completes. -/
theorem completeCommand_collected (op : Byte) (args out : List Byte) (phase : FaPhase) :
    completeCommand op args (s.withParser out phase) = completeCommand op args s :=
  (completeCommand_withParser op args s.inputs out phase s).trans
    (completeCommand_withParser op args s.inputs s.fa.out s.fa.phase s).symm

/-- Arguments are collected until they are complete; what follows meets what the command leaves. -/
theorem feed_args {op : Byte} (args : List Byte) (b : Byte) (pre rest : List Byte) (alive : s.alive = true)
    (collecting : s.fa.phase = .args op pre) (count : (pre ++ b :: args).length = argCount s.cfg.ops op) :
    feed (b :: args ++ rest) s = andThen (completeCommand op (pre ++ b :: args) s) (feed rest) := by
  induction args generalizing b pre s with
  | nil =>
    have first : feedByte b s = completeCommand op (pre ++ [b]) s := by
      rw [feedByte, whenAlive_alive s _ alive, collecting]
      exact if_neg (count ▸ Nat.lt_irrefl _)
    rw [List.cons_append, feed_cons_andThen, first, List.nil_append]
  | cons c args ih =>
    have more : (pre ++ [b]).length < argCount s.cfg.ops op := by
      rw [← count]
      simp
    have first : feedByte b s = .next (s.withParser s.fa.out (.args op (pre ++ [b]))) := by
      rw [feedByte, whenAlive_alive s _ alive, collecting]
      exact if_pos more
    have joined : pre ++ [b] ++ c :: args = pre ++ b :: c :: args := by simp
    have others := ih (s := s.withParser s.fa.out (.args op (pre ++ [b]))) c (pre ++ [b]) alive rfl (joined ▸ count)
    rw [joined, completeCommand_collected] at others
    rw [List.cons_append, feed_cons_andThen, first]
    exact others

/-- From the idle parser an opcode with its arguments completes its command (R362, R363). -/
theorem feed_command {op : Byte} {args : List Byte} (rest : List Byte) (alive : s.alive = true)
    (idle : s.fa.phase = .idle) (count : args.length = argCount s.cfg.ops op) :
    feed (op :: args ++ rest) s = andThen (completeCommand op args s) (feed rest) := by
  cases args with
  | nil =>
    have first : feedByte op s = completeCommand op [] s := by
      rw [feedByte, whenAlive_alive s _ alive, idle]
      exact if_pos count.symm
    rw [List.cons_append, feed_cons_andThen, first, List.nil_append]
  | cons b args =>
    have some : argCount s.cfg.ops op ≠ 0 := count ▸ Nat.succ_ne_zero _
    have first : feedByte op s = .next (s.withParser [] (.args op [])) := by
      rw [feedByte, whenAlive_alive s _ alive, idle]
      exact if_neg some
    have collected := feed_args (s := s.withParser [] (.args op [])) args b [] rest alive rfl count
    rw [completeCommand_collected] at collected
    rw [List.cons_append, feed_cons_andThen, first]
    exact collected

theorem busWrite_alive {addr : Half} {v : Byte} {t : State} (h : busWrite addr v s = .next t) : t.alive = true := by
  obtain ⟨alive, only | reset⟩ := busWrite_frame h
  · rw [OnlyWindow] at only
    exact (congrArg State.alive only).trans alive
  · rw [reset, s.softReset_alive, alive]

theorem dataByte_next {left : Nat} {d : Byte} {t : State} (h : dataByte left d s = .next t) :
    t.alive = true ∧ t.fa.phase = if left ≤ 1 then .idle else .data (left - 1) := by
  unfold dataByte at h
  split at h
  case h_1 u written =>
    cases h
    exact ⟨(busWrite_alive written : u.alive = true), rfl⟩
  all_goals cases h

/-- The data bytes of a block write are taken one by one (R364). -/
theorem feed_data (data : List Byte) (alive : s.alive = true)
    (waiting : data ≠ [] → s.fa.phase = .data data.length) : feed data s = writeData data s := by
  induction data generalizing s with
  | nil => exact feed_nil s alive
  | cons d ds ih =>
    have first : feedByte d s = dataByte (ds.length + 1) d s := by
      rw [feedByte, whenAlive_alive s _ alive, waiting (List.cons_ne_nil d ds)]
      rfl
    rw [feed_cons_andThen, first, writeData]
    cases taken : dataByte (ds.length + 1) d s with
    | next t =>
      obtain ⟨stillAlive, phase⟩ := dataByte_next taken
      refine ih stillAlive fun more => ?_
      have several : ¬ ds.length + 1 ≤ 1 := by simpa using more
      rw [phase, if_neg several, Nat.add_sub_cancel]
    | fault e | refused e => rfl

/-- A block write's two count bytes begin its data. -/
theorem feed_block (lo hi : Byte) (data : List Byte) (alive : s.alive = true) (idle : s.fa.phase = .idle)
    (count : data.length = (half hi lo).toNat) :
    feed (s.cfg.ops.wrbytes :: lo :: hi :: data) s = exec (.fWrbytes data) s := by
  have two : [lo, hi].length = argCount s.cfg.ops s.cfg.ops.wrbytes := (if_pos rfl).symm
  have taken : feed data (s.beginData data.length) = writeData data (s.beginData data.length) := by
    refine feed_data data alive fun some => ?_
    exact if_neg fun none => some (List.length_eq_zero_iff.mp none)
  calc feed (s.cfg.ops.wrbytes :: lo :: hi :: data) s
      = andThen (completeCommand s.cfg.ops.wrbytes [lo, hi] s) (feed data) := feed_command data alive idle two
    _ = feed data (s.beginData data.length) := by rw [completeCommand_block, ← count, andThen]
    _ = writeData data (s.beginData data.length) := taken
    _ = exec (.fWrbytes data) s := (whenAlive_alive s _ alive).symm

/-- A whole command fed to the idle parser of a live block is its instruction. -/
theorem feed_decoded {bytes : List Byte} {i : Instr} (decoded : decodeFcmd s.cfg.ops bytes = .ok i)
    (alive : s.alive = true) (idle : s.fa.phase = .idle) : feed bytes s = exec i s := by
  rcases decodeFcmd_cases decoded with ⟨lo, hi, data, rfl, count, rfl⟩ | ⟨op, args, rfl, noBlock, command⟩
  · exact feed_block lo hi data alive idle count
  · have fed := feed_command [] alive idle (length_of_decodeCommand command)
    rw [List.append_nil, completeCommand_decoded noBlock command] at fed
    rw [fed]
    cases runs : exec i s with
    | next t => exact feed_nil t ((facadeRow_decodeCommand command).alive runs)
    | fault e | refused e => rfl

end

/-- Settles O53: a unit other than a facade command is run at once, a facade command byte by byte to the same effect. -/
theorem stepRunsTheDecodedUnit : Obligations.StepRunsTheDecodedUnit := by
  refine ⟨fun p i rest s decoded parser => ?_, fun s empty => by rw [step, empty]⟩
  rcases accept_op p { s with inputs := rest } with ⟨bytes, rfl⟩ | ⟨j, -, decoded', runs⟩
  · show feed bytes (s.withInputs rest) = exec i (s.withInputs rest)
    cases alive : (s.withInputs rest).alive with
    | false => rw [feed_dead bytes _ alive, exec_dead i _ alive, if_pos (decodeFcmd_access decoded)]
    | true => exact feed_decoded (s := s.withInputs rest) decoded alive (parser bytes rfl)
  · cases decoded.symm.trans decoded'
    exact runs

end Sys2Proof.Machine
end
